-- ==== Sys2Proof/Word.lean ====
section
/-! DEFINITION. The two data widths of the machine (00_scope.md R7, R8): bytes and words. -/

namespace Sys2Proof

/-- An 8-bit value: A, X, Y, SP and every memory byte (R7, R8). -/
abbrev Byte := BitVec 8

/-- A 16-bit value: PC and every address (R7, R8). -/
abbrev Word := BitVec 16

end Sys2Proof
end

