-- ==== Sys2Proof/Machine/Bits.lean ====
section
/-! DEFINITION. Bit fields, byte order and sign extension (00_scope.md R8, R9; 20_memory.md R65). -/

namespace Sys2Proof

/-- `v[7:0]` of a word, its low byte (R8). -/
def loByte (w : Word) : Byte := w.setWidth 8

/-- `v[15:8]` of a word, its high byte (R8). -/
def hiByte (w : Word) : Byte := (w >>> 8).setWidth 8

/-- `hi : lo`, the word `hi * 256 + lo` (R8). -/
def wordOf (hi lo : Byte) : Word := hi ++ lo

/-- `zext_16(b)` (R9). -/
def zext16 (b : Byte) : Word := b.setWidth 16

/-- `sext_8(b)`, the signed value of a byte (R9). -/
def sext8 (b : Byte) : Int := b.toInt

/-- A signed displacement as a word modulo 65536: `sext_16` of the byte that encodes it (R9). -/
def dispWord (d : Int) : Word := BitVec.ofInt 16 d

/-- A boolean used as a number: 1 for true, 0 for false (R9). -/
def bitNat (b : Bool) : Nat := if b then 1 else 0

/-- A boolean as bit 0 of a byte. -/
def bitByte (b : Bool) : Byte := if b then 1 else 0

end Sys2Proof
end

