-- ==== Sys2Proof/Syntax.lean ====
section
/-! DEFINITION. The instructions: one constructor per row of spec/opcode_table.json (30_encoding.md R99, R100), with
the row's operand bytes as arguments (R81). A branch displacement is the signed number the byte stands for (R97);
BRK carries its padding byte (R104, D33). Suffixes name the addressing mode: Acc, Imm, Zp, ZpX, ZpY, Abs, AbsX, AbsY,
Ind, IndX, IndY; Implied and Relative have none. -/

namespace Sys2Proof

/-- The thirteen addressing modes (R83, C1). -/
inductive Mode
  | accumulator | immediate | implied | zeroPage | zeroPageX | zeroPageY | absolute | absoluteX | absoluteY
  | indirect | indirectX | indirectY | relative
deriving DecidableEq, Repr

/-- The 56 mnemonics (R108). -/
inductive Mnemonic
  | lda | ldx | ldy | sta | stx | sty
  | tax | tay | txa | tya | tsx | txs | pha | php | pla | plp
  | adc | sbc | and | ora | eor | bit | cmp | cpx | cpy | inc | dec | inx | iny | dex | dey
  | asl | lsr | rol | ror
  | jmp | jsr | rts | bcc | bcs | beq | bmi | bne | bpl | bvc | bvs
  | clc | cld | cli | clv | sec | sed | sei | nop | brk | rti
deriving DecidableEq, Repr

/-- The instruction set (R99). -/
inductive Instr
  -- LDA (R125)
  | ldaIndX (b : Byte)
  | ldaZp (b : Byte)
  | ldaImm (v : Byte)
  | ldaAbs (w : Word)
  | ldaIndY (b : Byte)
  | ldaZpX (b : Byte)
  | ldaAbsY (w : Word)
  | ldaAbsX (w : Word)
  -- LDX (R126)
  | ldxImm (v : Byte)
  | ldxZp (b : Byte)
  | ldxAbs (w : Word)
  | ldxZpY (b : Byte)
  | ldxAbsY (w : Word)
  -- LDY (R127)
  | ldyImm (v : Byte)
  | ldyZp (b : Byte)
  | ldyAbs (w : Word)
  | ldyZpX (b : Byte)
  | ldyAbsX (w : Word)
  -- STA (R128)
  | staIndX (b : Byte)
  | staZp (b : Byte)
  | staAbs (w : Word)
  | staIndY (b : Byte)
  | staZpX (b : Byte)
  | staAbsY (w : Word)
  | staAbsX (w : Word)
  -- STX (R129)
  | stxZp (b : Byte)
  | stxAbs (w : Word)
  | stxZpY (b : Byte)
  -- STY (R130)
  | styZp (b : Byte)
  | styAbs (w : Word)
  | styZpX (b : Byte)
  -- TAX (R131)
  | tax
  -- TAY (R132)
  | tay
  -- TXA (R133)
  | txa
  -- TYA (R134)
  | tya
  -- TSX (R135)
  | tsx
  -- TXS (R136)
  | txs
  -- PHA (R137)
  | pha
  -- PHP (R138)
  | php
  -- PLA (R139)
  | pla
  -- PLP (R140)
  | plp
  -- ADC (R144)
  | adcIndX (b : Byte)
  | adcZp (b : Byte)
  | adcImm (v : Byte)
  | adcAbs (w : Word)
  | adcIndY (b : Byte)
  | adcZpX (b : Byte)
  | adcAbsY (w : Word)
  | adcAbsX (w : Word)
  -- SBC (R145)
  | sbcIndX (b : Byte)
  | sbcZp (b : Byte)
  | sbcImm (v : Byte)
  | sbcAbs (w : Word)
  | sbcIndY (b : Byte)
  | sbcZpX (b : Byte)
  | sbcAbsY (w : Word)
  | sbcAbsX (w : Word)
  -- AND (R146)
  | andIndX (b : Byte)
  | andZp (b : Byte)
  | andImm (v : Byte)
  | andAbs (w : Word)
  | andIndY (b : Byte)
  | andZpX (b : Byte)
  | andAbsY (w : Word)
  | andAbsX (w : Word)
  -- ORA (R147)
  | oraIndX (b : Byte)
  | oraZp (b : Byte)
  | oraImm (v : Byte)
  | oraAbs (w : Word)
  | oraIndY (b : Byte)
  | oraZpX (b : Byte)
  | oraAbsY (w : Word)
  | oraAbsX (w : Word)
  -- EOR (R148)
  | eorIndX (b : Byte)
  | eorZp (b : Byte)
  | eorImm (v : Byte)
  | eorAbs (w : Word)
  | eorIndY (b : Byte)
  | eorZpX (b : Byte)
  | eorAbsY (w : Word)
  | eorAbsX (w : Word)
  -- BIT (R149)
  | bitZp (b : Byte)
  | bitAbs (w : Word)
  -- CMP (R150)
  | cmpIndX (b : Byte)
  | cmpZp (b : Byte)
  | cmpImm (v : Byte)
  | cmpAbs (w : Word)
  | cmpIndY (b : Byte)
  | cmpZpX (b : Byte)
  | cmpAbsY (w : Word)
  | cmpAbsX (w : Word)
  -- CPX (R151)
  | cpxImm (v : Byte)
  | cpxZp (b : Byte)
  | cpxAbs (w : Word)
  -- CPY (R152)
  | cpyImm (v : Byte)
  | cpyZp (b : Byte)
  | cpyAbs (w : Word)
  -- INC (R153)
  | incZp (b : Byte)
  | incAbs (w : Word)
  | incZpX (b : Byte)
  | incAbsX (w : Word)
  -- DEC (R154)
  | decZp (b : Byte)
  | decAbs (w : Word)
  | decZpX (b : Byte)
  | decAbsX (w : Word)
  -- INX (R155)
  | inx
  -- INY (R156)
  | iny
  -- DEX (R157)
  | dex
  -- DEY (R158)
  | dey
  -- ASL (R159)
  | aslZp (b : Byte)
  | aslAcc
  | aslAbs (w : Word)
  | aslZpX (b : Byte)
  | aslAbsX (w : Word)
  -- LSR (R160)
  | lsrZp (b : Byte)
  | lsrAcc
  | lsrAbs (w : Word)
  | lsrZpX (b : Byte)
  | lsrAbsX (w : Word)
  -- ROL (R161)
  | rolZp (b : Byte)
  | rolAcc
  | rolAbs (w : Word)
  | rolZpX (b : Byte)
  | rolAbsX (w : Word)
  -- ROR (R162)
  | rorZp (b : Byte)
  | rorAcc
  | rorAbs (w : Word)
  | rorZpX (b : Byte)
  | rorAbsX (w : Word)
  -- JMP (R163)
  | jmpAbs (w : Word)
  | jmpInd (w : Word)
  -- JSR (R164)
  | jsrAbs (w : Word)
  -- RTS (R165)
  | rts
  -- BCC (R166)
  | bcc (d : Int)
  -- BCS (R167)
  | bcs (d : Int)
  -- BEQ (R168)
  | beq (d : Int)
  -- BMI (R169)
  | bmi (d : Int)
  -- BNE (R170)
  | bne (d : Int)
  -- BPL (R171)
  | bpl (d : Int)
  -- BVC (R172)
  | bvc (d : Int)
  -- BVS (R173)
  | bvs (d : Int)
  -- CLC (R174)
  | clc
  -- CLD (R175)
  | cld
  -- CLI (R176)
  | cli
  -- CLV (R177)
  | clv
  -- SEC (R178)
  | sec
  -- SED (R179)
  | sed
  -- SEI (R180)
  | sei
  -- NOP (R181)
  | nop
  -- BRK (R182)
  | brk (pad : Byte)
  -- RTI (R183)
  | rti
deriving DecidableEq, Repr

end Sys2Proof
end

