-- ==== Sys2Proof/WellFormed.lean ====
section
/-! DEFINITION. What the type of instructions does not already carry. Operand bytes and addresses are bytes and
words, and each constructor is one row of the opcode table, so a mode a mnemonic does not have cannot be written.
The one condition left is the branch displacement, which "must lie in -128 to 127" (30_encoding.md R97, R106). -/

namespace Sys2Proof

/-- A displacement an assembler can encode: `-128 <= d <= 127` (R106). -/
def displacementFits (d : Int) : Bool := decide (-128 ≤ d) && decide (d ≤ 127)

/-- The instruction can be encoded: its displacement, if it has one, fits a signed byte (R97, R106). -/
def Instr.wellFormed : Instr → Bool
  | .bcc d | .bcs d | .beq d | .bmi d | .bne d | .bpl d | .bvc d | .bvs d => displacementFits d
  | .ldaIndX _ | .ldaZp _ | .ldaImm _ | .ldaAbs _ | .ldaIndY _ | .ldaZpX _ | .ldaAbsY _ | .ldaAbsX _
  | .ldxImm _ | .ldxZp _ | .ldxAbs _ | .ldxZpY _ | .ldxAbsY _ | .ldyImm _ | .ldyZp _ | .ldyAbs _ | .ldyZpX _
  | .ldyAbsX _ | .staIndX _ | .staZp _ | .staAbs _ | .staIndY _ | .staZpX _ | .staAbsY _ | .staAbsX _
  | .stxZp _ | .stxAbs _ | .stxZpY _ | .styZp _ | .styAbs _ | .styZpX _ | .tax | .tay | .txa | .tya | .tsx
  | .txs | .pha | .php | .pla | .plp | .adcIndX _ | .adcZp _ | .adcImm _ | .adcAbs _ | .adcIndY _ | .adcZpX _
  | .adcAbsY _ | .adcAbsX _ | .sbcIndX _ | .sbcZp _ | .sbcImm _ | .sbcAbs _ | .sbcIndY _ | .sbcZpX _
  | .sbcAbsY _ | .sbcAbsX _ | .andIndX _ | .andZp _ | .andImm _ | .andAbs _ | .andIndY _ | .andZpX _
  | .andAbsY _ | .andAbsX _ | .oraIndX _ | .oraZp _ | .oraImm _ | .oraAbs _ | .oraIndY _ | .oraZpX _
  | .oraAbsY _ | .oraAbsX _ | .eorIndX _ | .eorZp _ | .eorImm _ | .eorAbs _ | .eorIndY _ | .eorZpX _
  | .eorAbsY _ | .eorAbsX _ | .bitZp _ | .bitAbs _ | .cmpIndX _ | .cmpZp _ | .cmpImm _ | .cmpAbs _ | .cmpIndY _
  | .cmpZpX _ | .cmpAbsY _ | .cmpAbsX _ | .cpxImm _ | .cpxZp _ | .cpxAbs _ | .cpyImm _ | .cpyZp _ | .cpyAbs _
  | .incZp _ | .incAbs _ | .incZpX _ | .incAbsX _ | .decZp _ | .decAbs _ | .decZpX _ | .decAbsX _ | .inx | .iny
  | .dex | .dey | .aslZp _ | .aslAcc | .aslAbs _ | .aslZpX _ | .aslAbsX _ | .lsrZp _ | .lsrAcc | .lsrAbs _
  | .lsrZpX _ | .lsrAbsX _ | .rolZp _ | .rolAcc | .rolAbs _ | .rolZpX _ | .rolAbsX _ | .rorZp _ | .rorAcc
  | .rorAbs _ | .rorZpX _ | .rorAbsX _ | .jmpAbs _ | .jmpInd _ | .jsrAbs _ | .rts | .clc | .cld | .cli | .clv
  | .sec | .sed | .sei | .nop | .brk _ | .rti => true

end Sys2Proof
end

