-- ==== Sys2Proof/Decode.lean ====
section
/-! DEFINITION. The opcode table as data (30_encoding.md R98 to R100), the decoder (R109) and the encoder (R81), the
operand byte counts (R104), and the host's `decodeTableWord`. -/

namespace Sys2Proof

/-- How a row's operand bytes make its instruction (R81): none, one byte, a signed displacement, a little-endian word. -/
inductive Shape
  | bare (i : Instr)
  | byte (f : Byte → Instr)
  | disp (f : Int → Instr)
  | word (f : Word → Instr)

/-- Row 0x of the opcode map (R100). -/
def opcodeRow0 : List (Byte × Shape) :=
  [(0x00, .byte .brk), (0x01, .byte .oraIndX), (0x05, .byte .oraZp), (0x06, .byte .aslZp),
   (0x08, .bare .php), (0x09, .byte .oraImm), (0x0A, .bare .aslAcc), (0x0D, .word .oraAbs),
   (0x0E, .word .aslAbs)]

/-- Row 1x of the opcode map (R100). -/
def opcodeRow1 : List (Byte × Shape) :=
  [(0x10, .disp .bpl), (0x11, .byte .oraIndY), (0x15, .byte .oraZpX), (0x16, .byte .aslZpX),
   (0x18, .bare .clc), (0x19, .word .oraAbsY), (0x1D, .word .oraAbsX), (0x1E, .word .aslAbsX)]

/-- Row 2x of the opcode map (R100). -/
def opcodeRow2 : List (Byte × Shape) :=
  [(0x20, .word .jsrAbs), (0x21, .byte .andIndX), (0x24, .byte .bitZp), (0x25, .byte .andZp),
   (0x26, .byte .rolZp), (0x28, .bare .plp), (0x29, .byte .andImm), (0x2A, .bare .rolAcc),
   (0x2C, .word .bitAbs), (0x2D, .word .andAbs), (0x2E, .word .rolAbs)]

/-- Row 3x of the opcode map (R100). -/
def opcodeRow3 : List (Byte × Shape) :=
  [(0x30, .disp .bmi), (0x31, .byte .andIndY), (0x35, .byte .andZpX), (0x36, .byte .rolZpX),
   (0x38, .bare .sec), (0x39, .word .andAbsY), (0x3D, .word .andAbsX), (0x3E, .word .rolAbsX)]

/-- Row 4x of the opcode map (R100). -/
def opcodeRow4 : List (Byte × Shape) :=
  [(0x40, .bare .rti), (0x41, .byte .eorIndX), (0x45, .byte .eorZp), (0x46, .byte .lsrZp),
   (0x48, .bare .pha), (0x49, .byte .eorImm), (0x4A, .bare .lsrAcc), (0x4C, .word .jmpAbs),
   (0x4D, .word .eorAbs), (0x4E, .word .lsrAbs)]

/-- Row 5x of the opcode map (R100). -/
def opcodeRow5 : List (Byte × Shape) :=
  [(0x50, .disp .bvc), (0x51, .byte .eorIndY), (0x55, .byte .eorZpX), (0x56, .byte .lsrZpX),
   (0x58, .bare .cli), (0x59, .word .eorAbsY), (0x5D, .word .eorAbsX), (0x5E, .word .lsrAbsX)]

/-- Row 6x of the opcode map (R100). -/
def opcodeRow6 : List (Byte × Shape) :=
  [(0x60, .bare .rts), (0x61, .byte .adcIndX), (0x65, .byte .adcZp), (0x66, .byte .rorZp),
   (0x68, .bare .pla), (0x69, .byte .adcImm), (0x6A, .bare .rorAcc), (0x6C, .word .jmpInd),
   (0x6D, .word .adcAbs), (0x6E, .word .rorAbs)]

/-- Row 7x of the opcode map (R100). -/
def opcodeRow7 : List (Byte × Shape) :=
  [(0x70, .disp .bvs), (0x71, .byte .adcIndY), (0x75, .byte .adcZpX), (0x76, .byte .rorZpX),
   (0x78, .bare .sei), (0x79, .word .adcAbsY), (0x7D, .word .adcAbsX), (0x7E, .word .rorAbsX)]

/-- Row 8x of the opcode map (R100). -/
def opcodeRow8 : List (Byte × Shape) :=
  [(0x81, .byte .staIndX), (0x84, .byte .styZp), (0x85, .byte .staZp), (0x86, .byte .stxZp),
   (0x88, .bare .dey), (0x8A, .bare .txa), (0x8C, .word .styAbs), (0x8D, .word .staAbs),
   (0x8E, .word .stxAbs)]

/-- Row 9x of the opcode map (R100). -/
def opcodeRow9 : List (Byte × Shape) :=
  [(0x90, .disp .bcc), (0x91, .byte .staIndY), (0x94, .byte .styZpX), (0x95, .byte .staZpX),
   (0x96, .byte .stxZpY), (0x98, .bare .tya), (0x99, .word .staAbsY), (0x9A, .bare .txs),
   (0x9D, .word .staAbsX)]

/-- Row Ax of the opcode map (R100). -/
def opcodeRowA : List (Byte × Shape) :=
  [(0xA0, .byte .ldyImm), (0xA1, .byte .ldaIndX), (0xA2, .byte .ldxImm), (0xA4, .byte .ldyZp),
   (0xA5, .byte .ldaZp), (0xA6, .byte .ldxZp), (0xA8, .bare .tay), (0xA9, .byte .ldaImm),
   (0xAA, .bare .tax), (0xAC, .word .ldyAbs), (0xAD, .word .ldaAbs), (0xAE, .word .ldxAbs)]

/-- Row Bx of the opcode map (R100). -/
def opcodeRowB : List (Byte × Shape) :=
  [(0xB0, .disp .bcs), (0xB1, .byte .ldaIndY), (0xB4, .byte .ldyZpX), (0xB5, .byte .ldaZpX),
   (0xB6, .byte .ldxZpY), (0xB8, .bare .clv), (0xB9, .word .ldaAbsY), (0xBA, .bare .tsx),
   (0xBC, .word .ldyAbsX), (0xBD, .word .ldaAbsX), (0xBE, .word .ldxAbsY)]

/-- Row Cx of the opcode map (R100). -/
def opcodeRowC : List (Byte × Shape) :=
  [(0xC0, .byte .cpyImm), (0xC1, .byte .cmpIndX), (0xC4, .byte .cpyZp), (0xC5, .byte .cmpZp),
   (0xC6, .byte .decZp), (0xC8, .bare .iny), (0xC9, .byte .cmpImm), (0xCA, .bare .dex),
   (0xCC, .word .cpyAbs), (0xCD, .word .cmpAbs), (0xCE, .word .decAbs)]

/-- Row Dx of the opcode map (R100). -/
def opcodeRowD : List (Byte × Shape) :=
  [(0xD0, .disp .bne), (0xD1, .byte .cmpIndY), (0xD5, .byte .cmpZpX), (0xD6, .byte .decZpX),
   (0xD8, .bare .cld), (0xD9, .word .cmpAbsY), (0xDD, .word .cmpAbsX), (0xDE, .word .decAbsX)]

/-- Row Ex of the opcode map (R100). -/
def opcodeRowE : List (Byte × Shape) :=
  [(0xE0, .byte .cpxImm), (0xE1, .byte .sbcIndX), (0xE4, .byte .cpxZp), (0xE5, .byte .sbcZp),
   (0xE6, .byte .incZp), (0xE8, .bare .inx), (0xE9, .byte .sbcImm), (0xEA, .bare .nop),
   (0xEC, .word .cpxAbs), (0xED, .word .sbcAbs), (0xEE, .word .incAbs)]

/-- Row Fx of the opcode map (R100). -/
def opcodeRowF : List (Byte × Shape) :=
  [(0xF0, .disp .beq), (0xF1, .byte .sbcIndY), (0xF5, .byte .sbcZpX), (0xF6, .byte .incZpX),
   (0xF8, .bare .sed), (0xF9, .word .sbcAbsY), (0xFD, .word .sbcAbsX), (0xFE, .word .incAbsX)]

/-- The opcode table: the 151 populated bytes (R98, R99). -/
def opcodeTable : List (Byte × Shape) :=
  opcodeRow0 ++ opcodeRow1 ++ opcodeRow2 ++ opcodeRow3 ++ opcodeRow4 ++ opcodeRow5 ++ opcodeRow6 ++ opcodeRow7 ++
    opcodeRow8 ++ opcodeRow9 ++ opcodeRowA ++ opcodeRowB ++ opcodeRowC ++ opcodeRowD ++ opcodeRowE ++ opcodeRowF

/-- Why bytes do not decode. -/
inductive DecodeError
  /-- The byte has no entry in the opcode table (R101). -/
  | illegalOpcode (op : Byte)
  /-- The bytes given end before the instruction does. -/
  | truncated
deriving DecidableEq, Repr

/-- Decode the first instruction of a list of bytes; the bytes after it are handed back. The opcode byte alone gives
the instruction and its length (R80, R103, R109). -/
def decode : List Byte → Except DecodeError (Instr × List Byte)
  | [] => .error .truncated
  | op :: rest =>
    match opcodeTable.lookup op, rest with
    | none, _ => .error (.illegalOpcode op)
    | some (.bare i), rest => .ok (i, rest)
    | some (.byte f), v :: rest => .ok (f v, rest)
    | some (.disp f), v :: rest => .ok (f (sext8 v), rest)
    | some (.word f), lo :: hi :: rest => .ok (f (wordOf hi lo), rest)
    | _, _ => .error .truncated

/-- The little-endian bytes of an operand word (20_memory.md R65). -/
def wordBytes (w : Word) : List Byte := [loByte w, hiByte w]

/-- The byte of a displacement (R97). -/
def dispByte (d : Int) : Byte := BitVec.ofInt 8 d

/-- The bytes of an instruction, opcode first (R81, R100). -/
def encode : Instr → List Byte
  | .ldaIndX b => [0xA1, b]
  | .ldaZp b => [0xA5, b]
  | .ldaImm v => [0xA9, v]
  | .ldaAbs w => 0xAD :: wordBytes w
  | .ldaIndY b => [0xB1, b]
  | .ldaZpX b => [0xB5, b]
  | .ldaAbsY w => 0xB9 :: wordBytes w
  | .ldaAbsX w => 0xBD :: wordBytes w
  | .ldxImm v => [0xA2, v]
  | .ldxZp b => [0xA6, b]
  | .ldxAbs w => 0xAE :: wordBytes w
  | .ldxZpY b => [0xB6, b]
  | .ldxAbsY w => 0xBE :: wordBytes w
  | .ldyImm v => [0xA0, v]
  | .ldyZp b => [0xA4, b]
  | .ldyAbs w => 0xAC :: wordBytes w
  | .ldyZpX b => [0xB4, b]
  | .ldyAbsX w => 0xBC :: wordBytes w
  | .staIndX b => [0x81, b]
  | .staZp b => [0x85, b]
  | .staAbs w => 0x8D :: wordBytes w
  | .staIndY b => [0x91, b]
  | .staZpX b => [0x95, b]
  | .staAbsY w => 0x99 :: wordBytes w
  | .staAbsX w => 0x9D :: wordBytes w
  | .stxZp b => [0x86, b]
  | .stxAbs w => 0x8E :: wordBytes w
  | .stxZpY b => [0x96, b]
  | .styZp b => [0x84, b]
  | .styAbs w => 0x8C :: wordBytes w
  | .styZpX b => [0x94, b]
  | .tax => [0xAA]
  | .tay => [0xA8]
  | .txa => [0x8A]
  | .tya => [0x98]
  | .tsx => [0xBA]
  | .txs => [0x9A]
  | .pha => [0x48]
  | .php => [0x08]
  | .pla => [0x68]
  | .plp => [0x28]
  | .adcIndX b => [0x61, b]
  | .adcZp b => [0x65, b]
  | .adcImm v => [0x69, v]
  | .adcAbs w => 0x6D :: wordBytes w
  | .adcIndY b => [0x71, b]
  | .adcZpX b => [0x75, b]
  | .adcAbsY w => 0x79 :: wordBytes w
  | .adcAbsX w => 0x7D :: wordBytes w
  | .sbcIndX b => [0xE1, b]
  | .sbcZp b => [0xE5, b]
  | .sbcImm v => [0xE9, v]
  | .sbcAbs w => 0xED :: wordBytes w
  | .sbcIndY b => [0xF1, b]
  | .sbcZpX b => [0xF5, b]
  | .sbcAbsY w => 0xF9 :: wordBytes w
  | .sbcAbsX w => 0xFD :: wordBytes w
  | .andIndX b => [0x21, b]
  | .andZp b => [0x25, b]
  | .andImm v => [0x29, v]
  | .andAbs w => 0x2D :: wordBytes w
  | .andIndY b => [0x31, b]
  | .andZpX b => [0x35, b]
  | .andAbsY w => 0x39 :: wordBytes w
  | .andAbsX w => 0x3D :: wordBytes w
  | .oraIndX b => [0x01, b]
  | .oraZp b => [0x05, b]
  | .oraImm v => [0x09, v]
  | .oraAbs w => 0x0D :: wordBytes w
  | .oraIndY b => [0x11, b]
  | .oraZpX b => [0x15, b]
  | .oraAbsY w => 0x19 :: wordBytes w
  | .oraAbsX w => 0x1D :: wordBytes w
  | .eorIndX b => [0x41, b]
  | .eorZp b => [0x45, b]
  | .eorImm v => [0x49, v]
  | .eorAbs w => 0x4D :: wordBytes w
  | .eorIndY b => [0x51, b]
  | .eorZpX b => [0x55, b]
  | .eorAbsY w => 0x59 :: wordBytes w
  | .eorAbsX w => 0x5D :: wordBytes w
  | .bitZp b => [0x24, b]
  | .bitAbs w => 0x2C :: wordBytes w
  | .cmpIndX b => [0xC1, b]
  | .cmpZp b => [0xC5, b]
  | .cmpImm v => [0xC9, v]
  | .cmpAbs w => 0xCD :: wordBytes w
  | .cmpIndY b => [0xD1, b]
  | .cmpZpX b => [0xD5, b]
  | .cmpAbsY w => 0xD9 :: wordBytes w
  | .cmpAbsX w => 0xDD :: wordBytes w
  | .cpxImm v => [0xE0, v]
  | .cpxZp b => [0xE4, b]
  | .cpxAbs w => 0xEC :: wordBytes w
  | .cpyImm v => [0xC0, v]
  | .cpyZp b => [0xC4, b]
  | .cpyAbs w => 0xCC :: wordBytes w
  | .incZp b => [0xE6, b]
  | .incAbs w => 0xEE :: wordBytes w
  | .incZpX b => [0xF6, b]
  | .incAbsX w => 0xFE :: wordBytes w
  | .decZp b => [0xC6, b]
  | .decAbs w => 0xCE :: wordBytes w
  | .decZpX b => [0xD6, b]
  | .decAbsX w => 0xDE :: wordBytes w
  | .inx => [0xE8]
  | .iny => [0xC8]
  | .dex => [0xCA]
  | .dey => [0x88]
  | .aslZp b => [0x06, b]
  | .aslAcc => [0x0A]
  | .aslAbs w => 0x0E :: wordBytes w
  | .aslZpX b => [0x16, b]
  | .aslAbsX w => 0x1E :: wordBytes w
  | .lsrZp b => [0x46, b]
  | .lsrAcc => [0x4A]
  | .lsrAbs w => 0x4E :: wordBytes w
  | .lsrZpX b => [0x56, b]
  | .lsrAbsX w => 0x5E :: wordBytes w
  | .rolZp b => [0x26, b]
  | .rolAcc => [0x2A]
  | .rolAbs w => 0x2E :: wordBytes w
  | .rolZpX b => [0x36, b]
  | .rolAbsX w => 0x3E :: wordBytes w
  | .rorZp b => [0x66, b]
  | .rorAcc => [0x6A]
  | .rorAbs w => 0x6E :: wordBytes w
  | .rorZpX b => [0x76, b]
  | .rorAbsX w => 0x7E :: wordBytes w
  | .jmpAbs w => 0x4C :: wordBytes w
  | .jmpInd w => 0x6C :: wordBytes w
  | .jsrAbs w => 0x20 :: wordBytes w
  | .rts => [0x60]
  | .bcc d => [0x90, dispByte d]
  | .bcs d => [0xB0, dispByte d]
  | .beq d => [0xF0, dispByte d]
  | .bmi d => [0x30, dispByte d]
  | .bne d => [0xD0, dispByte d]
  | .bpl d => [0x10, dispByte d]
  | .bvc d => [0x50, dispByte d]
  | .bvs d => [0x70, dispByte d]
  | .clc => [0x18]
  | .cld => [0xD8]
  | .cli => [0x58]
  | .clv => [0xB8]
  | .sec => [0x38]
  | .sed => [0xF8]
  | .sei => [0x78]
  | .nop => [0xEA]
  | .brk pad => [0x00, pad]
  | .rti => [0x40]

/-- The addressing mode of an instruction (R83, R100). -/
def Instr.mode : Instr → Mode
  | .ldaIndX _ | .staIndX _ | .adcIndX _ | .sbcIndX _ | .andIndX _ | .oraIndX _ | .eorIndX _ | .cmpIndX _ => .indirectX
  | .ldaZp _ | .ldxZp _ | .ldyZp _ | .staZp _ | .stxZp _ | .styZp _ | .adcZp _ | .sbcZp _ | .andZp _ | .oraZp _
  | .eorZp _ | .bitZp _ | .cmpZp _ | .cpxZp _ | .cpyZp _ | .incZp _ | .decZp _ | .aslZp _ | .lsrZp _ | .rolZp _
  | .rorZp _ => .zeroPage
  | .ldaImm _ | .ldxImm _ | .ldyImm _ | .adcImm _ | .sbcImm _ | .andImm _ | .oraImm _ | .eorImm _ | .cmpImm _
  | .cpxImm _ | .cpyImm _ => .immediate
  | .ldaAbs _ | .ldxAbs _ | .ldyAbs _ | .staAbs _ | .stxAbs _ | .styAbs _ | .adcAbs _ | .sbcAbs _ | .andAbs _
  | .oraAbs _ | .eorAbs _ | .bitAbs _ | .cmpAbs _ | .cpxAbs _ | .cpyAbs _ | .incAbs _ | .decAbs _ | .aslAbs _
  | .lsrAbs _ | .rolAbs _ | .rorAbs _ | .jmpAbs _ | .jsrAbs _ => .absolute
  | .ldaIndY _ | .staIndY _ | .adcIndY _ | .sbcIndY _ | .andIndY _ | .oraIndY _ | .eorIndY _ | .cmpIndY _ => .indirectY
  | .ldaZpX _ | .ldyZpX _ | .staZpX _ | .styZpX _ | .adcZpX _ | .sbcZpX _ | .andZpX _ | .oraZpX _ | .eorZpX _
  | .cmpZpX _ | .incZpX _ | .decZpX _ | .aslZpX _ | .lsrZpX _ | .rolZpX _ | .rorZpX _ => .zeroPageX
  | .ldaAbsY _ | .ldxAbsY _ | .staAbsY _ | .adcAbsY _ | .sbcAbsY _ | .andAbsY _ | .oraAbsY _ | .eorAbsY _
  | .cmpAbsY _ => .absoluteY
  | .ldaAbsX _ | .ldyAbsX _ | .staAbsX _ | .adcAbsX _ | .sbcAbsX _ | .andAbsX _ | .oraAbsX _ | .eorAbsX _
  | .cmpAbsX _ | .incAbsX _ | .decAbsX _ | .aslAbsX _ | .lsrAbsX _ | .rolAbsX _ | .rorAbsX _ => .absoluteX
  | .ldxZpY _ | .stxZpY _ => .zeroPageY
  | .tax | .tay | .txa | .tya | .tsx | .txs | .pha | .php | .pla | .plp | .inx | .iny | .dex | .dey | .rts
  | .clc | .cld | .cli | .clv | .sec | .sed | .sei | .nop | .brk _ | .rti => .implied
  | .aslAcc | .lsrAcc | .rolAcc | .rorAcc => .accumulator
  | .jmpInd _ => .indirect
  | .bcc _ | .bcs _ | .beq _ | .bmi _ | .bne _ | .bpl _ | .bvc _ | .bvs _ => .relative

/-- The mnemonic of an instruction (R98, R108). -/
def Instr.mnemonic : Instr → Mnemonic
  | .ldaIndX _ | .ldaZp _ | .ldaImm _ | .ldaAbs _ | .ldaIndY _ | .ldaZpX _ | .ldaAbsY _ | .ldaAbsX _ => .lda
  | .ldxImm _ | .ldxZp _ | .ldxAbs _ | .ldxZpY _ | .ldxAbsY _ => .ldx
  | .ldyImm _ | .ldyZp _ | .ldyAbs _ | .ldyZpX _ | .ldyAbsX _ => .ldy
  | .staIndX _ | .staZp _ | .staAbs _ | .staIndY _ | .staZpX _ | .staAbsY _ | .staAbsX _ => .sta
  | .stxZp _ | .stxAbs _ | .stxZpY _ => .stx
  | .styZp _ | .styAbs _ | .styZpX _ => .sty
  | .tax => .tax
  | .tay => .tay
  | .txa => .txa
  | .tya => .tya
  | .tsx => .tsx
  | .txs => .txs
  | .pha => .pha
  | .php => .php
  | .pla => .pla
  | .plp => .plp
  | .adcIndX _ | .adcZp _ | .adcImm _ | .adcAbs _ | .adcIndY _ | .adcZpX _ | .adcAbsY _ | .adcAbsX _ => .adc
  | .sbcIndX _ | .sbcZp _ | .sbcImm _ | .sbcAbs _ | .sbcIndY _ | .sbcZpX _ | .sbcAbsY _ | .sbcAbsX _ => .sbc
  | .andIndX _ | .andZp _ | .andImm _ | .andAbs _ | .andIndY _ | .andZpX _ | .andAbsY _ | .andAbsX _ => .and
  | .oraIndX _ | .oraZp _ | .oraImm _ | .oraAbs _ | .oraIndY _ | .oraZpX _ | .oraAbsY _ | .oraAbsX _ => .ora
  | .eorIndX _ | .eorZp _ | .eorImm _ | .eorAbs _ | .eorIndY _ | .eorZpX _ | .eorAbsY _ | .eorAbsX _ => .eor
  | .bitZp _ | .bitAbs _ => .bit
  | .cmpIndX _ | .cmpZp _ | .cmpImm _ | .cmpAbs _ | .cmpIndY _ | .cmpZpX _ | .cmpAbsY _ | .cmpAbsX _ => .cmp
  | .cpxImm _ | .cpxZp _ | .cpxAbs _ => .cpx
  | .cpyImm _ | .cpyZp _ | .cpyAbs _ => .cpy
  | .incZp _ | .incAbs _ | .incZpX _ | .incAbsX _ => .inc
  | .decZp _ | .decAbs _ | .decZpX _ | .decAbsX _ => .dec
  | .inx => .inx
  | .iny => .iny
  | .dex => .dex
  | .dey => .dey
  | .aslZp _ | .aslAcc | .aslAbs _ | .aslZpX _ | .aslAbsX _ => .asl
  | .lsrZp _ | .lsrAcc | .lsrAbs _ | .lsrZpX _ | .lsrAbsX _ => .lsr
  | .rolZp _ | .rolAcc | .rolAbs _ | .rolZpX _ | .rolAbsX _ => .rol
  | .rorZp _ | .rorAcc | .rorAbs _ | .rorZpX _ | .rorAbsX _ => .ror
  | .jmpAbs _ | .jmpInd _ => .jmp
  | .jsrAbs _ => .jsr
  | .rts => .rts
  | .bcc _ => .bcc
  | .bcs _ => .bcs
  | .beq _ => .beq
  | .bmi _ => .bmi
  | .bne _ => .bne
  | .bpl _ => .bpl
  | .bvc _ => .bvc
  | .bvs _ => .bvs
  | .clc => .clc
  | .cld => .cld
  | .cli => .cli
  | .clv => .clv
  | .sec => .sec
  | .sed => .sed
  | .sei => .sei
  | .nop => .nop
  | .brk _ => .brk
  | .rti => .rti

/-- The operand bytes the resolver consumes (R104). -/
def Mode.operandBytes : Mode → Nat
  | .accumulator | .implied => 0
  | .immediate | .zeroPage | .zeroPageX | .zeroPageY | .indirectX | .indirectY | .relative => 1
  | .absolute | .absoluteX | .absoluteY | .indirect => 2

/-- The three bytes, first lowest, of an instruction whose bits are `w`, numbered as the opcode table numbers them;
the bits from `nbits` up are zero. -/
def tableBytes (nbits w : Nat) : List Byte :=
  let v := w % 2 ^ nbits
  [BitVec.ofNat 8 v, BitVec.ofNat 8 (v / 256), BitVec.ofNat 8 (v / 65536)]

/-- The instruction the decoder reads from those bytes. -/
def decodeTableWord (nbits w : Nat) : Option Instr :=
  match decode (tableBytes nbits w) with
  | .ok (i, _) => some i
  | .error _ => none

end Sys2Proof
end

