-- ==== Sys2Proof/Config.lean ====
section
/-! DEFINITION. The parameters the spec leaves OPEN (00_scope.md R7): "arguments of the model". They are plain
data held in the state (`Machine.State.cfg`), so that a statement over every state holds for every value of them;
no step changes them (log entry 1). -/

namespace Sys2Proof

/-- `DECIMAL_V_RULE` (D22): what ADC and SBC do to V in decimal mode. -/
inductive DecimalVRule
  /-- V is computed from the raw operand bytes exactly as in binary mode. -/
  | binary
  /-- V is left as it was. -/
  | unchanged
deriving DecidableEq, Repr

/-- The OPEN parameters of R7. -/
structure Config where
  /-- `OPEN_BUS_VALUE` (D8): what every read of the Open chunk returns. -/
  openBusValue : Byte
  /-- `IRQ_QUEUE_CAP` (D11): the capacity of the interrupt latch, at least 1. -/
  irqQueueCap : Nat
  /-- `IRQ_ENTRY_SETS_I` (D12): whether taking an interrupt sets InterruptDisable. -/
  irqEntrySetsI : Bool
  /-- `IRQ_GATED_BY_IN_SERVICE` (D13): whether the in-service flag blocks delivery. -/
  irqGatedByInService : Bool
  /-- `JMP_IND_PAGE_BUG` (D18): whether the pointer of an indirect jump wraps within its page. -/
  jmpIndPageBug : Bool
  /-- `ZP_PTR_WRAP` (D19): whether a zero-page pointer's high byte wraps within page 0. -/
  zpPtrWrap : Bool
  /-- `DECIMAL_V_RULE` (D22). -/
  decimalVRule : DecimalVRule
  /-- `RESET_ENTRY` (D26): a fixed address, or `none` for the platform reading `Load16($FFFC)`. -/
  resetEntry : Option Word
deriving DecidableEq, Repr

/-- The defaults of R7, "the default every derived vector in 95_test_vectors.md uses". -/
def Config.standard : Config :=
  { openBusValue := 0x00, irqQueueCap := 1, irqEntrySetsI := false, irqGatedByInService := false,
    jmpIndPageBug := false, zpPtrWrap := true, decimalVRule := .binary, resetEntry := none }

end Sys2Proof
end

