-- ==== Sys2Proof/Machine/State.lean ====
section
/-! DEFINITION. The state vector (10_state.md R13): plain data holding everything the spec gives the machine, the
fault and refusal types, the field updates, and the state right after reset (R49, 70_reset_and_hazards.md R205). -/

namespace Sys2Proof.Machine

/-- A byte array held as (address, byte) pairs with strictly rising addresses, listing no byte equal to what an
unlisted address reads as (Machine/Memory.lean). -/
abbrev Memory := List Host.Cell

/-- The seven stored flags (R20 to R27). -/
structure Flags where
  /-- Carry (R21). -/
  c : Bool
  /-- Zero (R22). -/
  z : Bool
  /-- InterruptDisable (R23). -/
  i : Bool
  /-- Decimal (R24). -/
  d : Bool
  /-- Break, stored state in this block (R25, D24). -/
  b : Bool
  /-- Overflow (R26). -/
  v : Bool
  /-- Negative (R27). -/
  n : Bool
deriving DecidableEq, Repr

/-- The advisory signals a step may emit (00_scope.md R12, R41). -/
inductive Signal
  /-- `IllegalOpcode(op, addr)` (60_exceptions.md R185). -/
  | illegalOpcode (op : Byte) (addr : Word)
  /-- `BreakStop` (46_flags_system.md R182). -/
  | breakStop
deriving DecidableEq, Repr

/-- The state of the block: R13's list, then the model's own two fields `cfg` and `signals`. -/
structure State where
  /-- Program counter: the address of the most recently fetched instruction byte (R18). -/
  pc : Word
  /-- Accumulator (R14). -/
  a : Byte
  /-- Index register X (R15). -/
  x : Byte
  /-- Index register Y (R16). -/
  y : Byte
  /-- Stack pointer into page `$01` (R17). -/
  sp : Byte
  /-- The seven flags (R20). -/
  flags : Flags
  /-- Raised, not yet delivered interrupt requests (R31). -/
  pending : Nat
  /-- "currently inside interrupt service" (R32). -/
  inService : Bool
  /-- RAM, one byte for each of the 65536 addresses (R36), keyed by address. -/
  ram : Memory
  /-- BASIC ROM, 8 KiB, keyed by zone-local offset like the other chunks below (R37, 20_memory.md R54). -/
  basic : Memory
  /-- Kernal ROM, 8 KiB (R37). -/
  kernal : Memory
  /-- Character ROM, 4 KiB (R37). -/
  char : Memory
  /-- Cartridge low ROM, 8 KiB (R37). -/
  cartLo : Memory
  /-- Cartridge high ROM, 8 KiB (R37). -/
  cartHi : Memory
  /-- The I/O chunk, 4 KiB (R38). -/
  io : Memory
  /-- The GAME cartridge line, true for 1, "no cartridge" (R33). -/
  game : Bool
  /-- The EXROM cartridge line, true for 1 (R33). -/
  exrom : Bool
  /-- Stop-on-break mode, set by the host and read by BRK (R40). -/
  stopOnBreak : Bool
  /-- MODEL'S OWN: the OPEN parameters (00_scope.md R7), which no step changes (log entry 1). -/
  cfg : Config
  /-- MODEL'S OWN: the advisory signals of the last step, which nothing reads (R41, log entry 7). -/
  signals : List Signal
deriving DecidableEq, Repr

/-- The reasons a step can stop with a fault: none. "The core itself never raises a fatal/unrecoverable error"
(60_exceptions.md R184), so nothing raises one. -/
inductive Fault : Type
deriving DecidableEq, Repr

/-- The reasons a step can be refused. -/
inductive Refusal
  /-- Raised by an arm of `exec` whose instruction has no meaning yet, by name; safe. No arm raises it now. -/
  | notModelled (mnemonic : String)
deriving DecidableEq, Repr

/-- What a meaning and a step answer. -/
abbrev Result := Host.Outcome State Fault Refusal

namespace State

/-- `PC <- v`. -/
def setPc (s : State) (v : Word) : State := { s with pc := v }
/-- `A <- v`. -/
def setA (s : State) (v : Byte) : State := { s with a := v }
/-- `X <- v`. -/
def setX (s : State) (v : Byte) : State := { s with x := v }
/-- `Y <- v`. -/
def setY (s : State) (v : Byte) : State := { s with y := v }
/-- `SP <- v`. -/
def setSp (s : State) (v : Byte) : State := { s with sp := v }
/-- Replace the seven flags. -/
def setFlags (s : State) (f : Flags) : State := { s with flags := f }
/-- `pending <- n`. -/
def setPending (s : State) (n : Nat) : State := { s with pending := n }
/-- `inService <- v`. -/
def setInService (s : State) (v : Bool) : State := { s with inService := v }
/-- Replace the RAM array. -/
def setRam (s : State) (m : Memory) : State := { s with ram := m }
/-- Replace the list of advisory signals. -/
def setSignals (s : State) (l : List Signal) : State := { s with signals := l }

/-- The machine right after reset (R49, 70_reset_and_hazards.md R205 to R209) for the launch values of log entries
2 to 6. PC is `RESET_ENTRY - 1` with the platform reading `RESET_ENTRY = Load16($FFFC)` (R206): with no ROM loaded
that word is `$0000`, so PC is `$FFFF` (the test `reset_is_standard_launch` checks it against `resetFrom`). -/
def reset : State :=
  { pc := 0xFFFF, a := 0x00, x := 0x00, y := 0x00, sp := 0xFF
    flags := { c := false, z := false, i := true, d := false, b := false, v := false, n := false }
    pending := 0, inService := false
    ram := [], basic := [], kernal := [], char := [], cartLo := [], cartHi := [], io := []
    game := true, exrom := true, stopOnBreak := true
    cfg := Config.standard, signals := [] }

end State

end Sys2Proof.Machine
end

