-- ==== Sys2Proof/Machine/Flags.lean ====
section
/-! DEFINITION. The status byte (10_state.md R28, R29) and every flag computation: `setFlagsNZ` (40_cycle.md R117),
packed BCD (43_arith_logic.md R141, R142), compare (R143), add and subtract (R144, R145), BIT (R149), shifts and
rotates (44_shift_rotate.md R159 to R162). -/

namespace Sys2Proof.Machine

namespace Flags

/-- `SR()`: N V 1 B D I Z C from bit 7 down (R28). -/
def sr (f : Flags) : Byte :=
  (bitByte f.n <<< 7) ||| (bitByte f.v <<< 6) ||| (1 <<< 5) ||| (bitByte f.b <<< 4) |||
    (bitByte f.d <<< 3) ||| (bitByte f.i <<< 2) ||| (bitByte f.z <<< 1) ||| bitByte f.c

/-- `SetSR(v)`; bit 5 is ignored (R29). -/
def ofSr (v : Byte) : Flags :=
  { n := v.getLsbD 7, v := v.getLsbD 6, b := v.getLsbD 4, d := v.getLsbD 3, i := v.getLsbD 2, z := v.getLsbD 1,
    c := v.getLsbD 0 }

/-- `setFlagsNZ(v)`: writes Z and N only (R117). -/
def setNZ (f : Flags) (v : Byte) : Flags := { f with z := v == 0, n := v.getLsbD 7 }

/-- `Compare(r, m)`: no carry in, V not written (R143, D23). -/
def compare (f : Flags) (r m : Byte) : Flags :=
  let t := r - m
  { f with c := decide (m ≤ r), z := r == m, n := t.getLsbD 7 }

/-- BIT's flags: Z from `A AND M`, N and V copied from the operand (R149). -/
def bitTest (f : Flags) (a m : Byte) : Flags := { f with z := a &&& m == 0, n := m.getLsbD 7, v := m.getLsbD 6 }

end Flags

/-- `fromBCD(b)`, the same formula for every byte (R141, D21). -/
def fromBCD (b : Byte) : Nat := 10 * (b >>> 4).toNat + (b &&& 0x0F).toNat

/-- `toBCD(n)`, the low two decimal digits (R142). -/
def toBCD (n : Nat) : Byte := (BitVec.ofNat 8 (n / 10 % 10) <<< 4) ||| BitVec.ofNat 8 (n % 10)

/-- Signed overflow: the exact result is outside [-128, 127] (R144, R145). -/
def signedOverflow (t : Int) : Bool := decide (t < -128) || decide (t > 127)

/-- V in decimal mode (`DECIMAL_V_RULE`, D22): as in binary mode, or left as it was. -/
def decimalOverflow (rule : DecimalVRule) (old : Bool) (t : Int) : Bool :=
  match rule with
  | .binary => signedOverflow t
  | .unchanged => old

/-- ADC (R144): the byte written to A, and the flags. -/
def addWithCarry (rule : DecimalVRule) (f : Flags) (a m : Byte) : Byte × Flags :=
  let c := bitNat f.c
  let t : Int := sext8 a + sext8 m + c
  if f.d then
    let n := fromBCD a + fromBCD m + c
    let r := toBCD n
    (r, Flags.setNZ { f with c := decide (n > 99), v := decimalOverflow rule f.v t } r)
  else
    let u := a.toNat + m.toNat + c
    let r := BitVec.ofNat 8 u
    (r, Flags.setNZ { f with c := decide (u > 255), v := signedOverflow t } r)

/-- SBC (R145): C = 1 means "no borrow", so the borrow in is `1 - C`. -/
def subWithBorrow (rule : DecimalVRule) (f : Flags) (a m : Byte) : Byte × Flags :=
  let bin := 1 - bitNat f.c
  let t : Int := sext8 a - sext8 m - bin
  if f.d then
    let n : Int := (fromBCD a : Int) - fromBCD m - bin
    let r := toBCD (n % 100).toNat
    (r, Flags.setNZ { f with c := decide (n ≥ 0), v := decimalOverflow rule f.v t } r)
  else
    let u : Word := zext16 a - zext16 m - BitVec.ofNat 16 bin
    let r := loByte u
    (r, Flags.setNZ { f with c := decide (u ≤ 255), v := signedOverflow t } r)

/-- ASL: bit 7 goes to Carry (R159). -/
def shiftLeft (f : Flags) (m : Byte) : Byte × Flags :=
  let r := m <<< 1
  (r, Flags.setNZ { f with c := m.getLsbD 7 } r)

/-- LSR: bit 0 goes to Carry (R160). -/
def shiftRight (f : Flags) (m : Byte) : Byte × Flags :=
  let r := m >>> 1
  (r, Flags.setNZ { f with c := m.getLsbD 0 } r)

/-- ROL: the old Carry enters bit 0, bit 7 goes to Carry (R161). -/
def rotateLeft (f : Flags) (m : Byte) : Byte × Flags :=
  let r := (m <<< 1) ||| bitByte f.c
  (r, Flags.setNZ { f with c := m.getLsbD 7 } r)

/-- ROR: the old Carry enters bit 7, bit 0 goes to Carry (R162). -/
def rotateRight (f : Flags) (m : Byte) : Byte × Flags :=
  let r := (m >>> 1) ||| (bitByte f.c <<< 7)
  (r, Flags.setNZ { f with c := m.getLsbD 0 } r)

end Sys2Proof.Machine
end

