-- ==== Sys2Proof/Machine/Memory.lean ====
section
/-! DEFINITION. The byte arrays behind the chunks (10_state.md R36 to R38): reading and writing a byte of a list in
canonical form, and that form. -/

namespace Sys2Proof.Machine

/-- The backing stores a zone can be served by (20_memory.md R53). -/
inductive ChunkKind
  | ram | basic | kernal | char | cartLo | cartHi | io
  /-- The Open chunk: no storage (10_state.md R39). -/
  | openBus
deriving DecidableEq, Repr

namespace ChunkKind

/-- The chunk's size in bytes (R36 to R38, D7). -/
def size : ChunkKind → Nat
  | .ram => 0x10000
  | .basic | .kernal | .cartLo | .cartHi => 0x2000
  | .char | .io => 0x1000
  | .openBus => 0

end ChunkKind

namespace Memory

/-- What an unlisted byte of a chunk reads as. DESIGN CHOICE, unsafe (log entries 3 and 4): `$00`, except the port
byte `RAM[$0001]`, which reads the platform value `$37` (70_reset_and_hazards.md R211). -/
def unlisted (k : ChunkKind) (a : Nat) : Byte :=
  match k with
  | .ram => if a = 1 then 0x37 else 0x00
  | _ => 0x00

/-- The byte at address `a`. -/
def read (k : ChunkKind) : Memory → Nat → Byte
  | [], a => unlisted k a
  | (b, v) :: m, a => if a = b then v else read k m a

/-- Put an entry into a list of rising addresses that does not list its address. -/
def insert (a : Nat) (v : Byte) : Memory → Memory
  | [] => [(a, v)]
  | (b, w) :: m => if a < b then (a, v) :: (b, w) :: m else (b, w) :: insert a v m

/-- Take an address off the list. -/
def erase (a : Nat) : Memory → Memory
  | [] => []
  | (b, w) :: m => if a = b then erase a m else (b, w) :: erase a m

/-- Store `v` at `a`, keeping the canonical form: a byte equal to what an unlisted address reads as is not listed. -/
def write (k : ChunkKind) (m : Memory) (a : Nat) (v : Byte) : Memory :=
  if v = unlisted k a then erase a m else insert a v (erase a m)

/-- The contents of a chunk filled from `bytes`, the first at address `a`, each further one at the next. -/
def image (k : ChunkKind) : Nat → List Byte → Memory
  | _, [] => []
  | a, v :: l => if v = unlisted k a then image k (a + 1) l else (a, v) :: image k (a + 1) l

/-- Every address of the list is at least `lo`, and they rise strictly. -/
def risingFrom : Nat → Memory → Bool
  | _, [] => true
  | lo, (b, _) :: m => decide (lo ≤ b) && risingFrom (b + 1) m

/-- The canonical form of a chunk of kind `k`: addresses strictly rising and inside the chunk, and no entry equal to
what an unlisted address reads as. -/
def wf (k : ChunkKind) (m : Memory) : Bool :=
  risingFrom 0 m && m.all fun e => decide (e.1 < k.size) && decide (e.2 ≠ unlisted k e.1)

end Memory

end Sys2Proof.Machine
end

