-- ==== Sys2Proof/Machine/Mmu.lean ====
section
/-! DEFINITION. The memory-mapping unit: zones (20_memory.md R51, R52), the mode (10_state.md R34), the mode table
(R55), and the routing of reads and writes (R56, R57, R64). -/

namespace Sys2Proof.Machine

/-- `PORT_ADDR` (D4). -/
def portAddr : Word := 0x0001

/-- The seven fixed zones (R51). -/
inductive Zone
  | z0 | z1 | z2 | z3 | z4 | z5 | z6
deriving DecidableEq, Repr

/-- The zone's column in the mode table. -/
def Zone.index : Zone → Fin 7
  | .z0 => 0 | .z1 => 1 | .z2 => 2 | .z3 => 3 | .z4 => 4 | .z5 => 5 | .z6 => 6

/-- `base(z)` (R51, R52). -/
def Zone.base : Zone → Word
  | .z0 => 0x0000 | .z1 => 0x1000 | .z2 => 0x8000 | .z3 => 0xA000 | .z4 => 0xC000 | .z5 => 0xD000 | .z6 => 0xE000

/-- `zoneOf(addr)` (R52). -/
def zoneOf (addr : Word) : Zone :=
  if addr ≤ 0x0FFF then .z0
  else if addr ≤ 0x7FFF then .z1
  else if addr ≤ 0x9FFF then .z2
  else if addr ≤ 0xBFFF then .z3
  else if addr ≤ 0xCFFF then .z4
  else if addr ≤ 0xDFFF then .z5
  else .z6

/-- The mode table (R55; its rows are the spec's decision D6), row 0 first, one column per zone. -/
def modeTable : Vector (Vector ChunkKind 7) 32 := #v[
  #v[.ram, .ram, .ram, .ram, .ram, .ram, .ram],
  #v[.ram, .ram, .ram, .ram, .ram, .ram, .ram],
  #v[.ram, .ram, .ram, .cartHi, .ram, .char, .kernal],
  #v[.ram, .ram, .cartLo, .cartHi, .ram, .char, .kernal],
  #v[.ram, .ram, .ram, .ram, .ram, .ram, .ram],
  #v[.ram, .ram, .ram, .ram, .ram, .io, .ram],
  #v[.ram, .ram, .ram, .cartHi, .ram, .io, .kernal],
  #v[.ram, .ram, .cartLo, .cartHi, .ram, .io, .kernal],
  #v[.ram, .ram, .ram, .ram, .ram, .ram, .ram],
  #v[.ram, .ram, .ram, .ram, .ram, .char, .ram],
  #v[.ram, .ram, .ram, .ram, .ram, .char, .kernal],
  #v[.ram, .ram, .cartLo, .basic, .ram, .char, .kernal],
  #v[.ram, .ram, .ram, .ram, .ram, .ram, .ram],
  #v[.ram, .ram, .ram, .ram, .ram, .io, .ram],
  #v[.ram, .ram, .ram, .ram, .ram, .io, .kernal],
  #v[.ram, .ram, .cartLo, .basic, .ram, .io, .kernal],
  #v[.ram, .openBus, .cartLo, .openBus, .openBus, .io, .cartHi],
  #v[.ram, .openBus, .cartLo, .openBus, .openBus, .io, .cartHi],
  #v[.ram, .openBus, .cartLo, .openBus, .openBus, .io, .cartHi],
  #v[.ram, .openBus, .cartLo, .openBus, .openBus, .io, .cartHi],
  #v[.ram, .openBus, .cartLo, .openBus, .openBus, .io, .cartHi],
  #v[.ram, .openBus, .cartLo, .openBus, .openBus, .io, .cartHi],
  #v[.ram, .openBus, .cartLo, .openBus, .openBus, .io, .cartHi],
  #v[.ram, .openBus, .cartLo, .openBus, .openBus, .io, .cartHi],
  #v[.ram, .ram, .ram, .ram, .ram, .ram, .ram],
  #v[.ram, .ram, .ram, .ram, .ram, .char, .ram],
  #v[.ram, .ram, .ram, .ram, .ram, .char, .kernal],
  #v[.ram, .ram, .ram, .basic, .ram, .char, .kernal],
  #v[.ram, .ram, .ram, .ram, .ram, .ram, .ram],
  #v[.ram, .ram, .ram, .ram, .ram, .io, .ram],
  #v[.ram, .ram, .ram, .ram, .ram, .io, .kernal],
  #v[.ram, .ram, .ram, .basic, .ram, .io, .kernal]]

/-- `MODE_TABLE[mode][zone]` (R55). -/
def chunkFor (mode : BitVec 5) (z : Zone) : ChunkKind := modeTable[mode.toFin][z.index]

namespace State

/-- `RAM[addr]`: the RAM byte itself, whatever the mode (R36). -/
def ramByte (s : State) (addr : Word) : Byte := Memory.read .ram s.ram addr.toNat

/-- `mode()` (10_state.md R34): `EXROM<<4 | GAME<<3 | (RAM[PORT_ADDR] AND 7)`. -/
def mode (s : State) : BitVec 5 :=
  ((bitByte s.exrom <<< 4) ||| (bitByte s.game <<< 3) ||| (s.ramByte portAddr &&& 7)).setWidth 5

/-- The chunk that serves a read of `addr` in the current mode (R53, R56). -/
def servedBy (s : State) (addr : Word) : ChunkKind := chunkFor s.mode (zoneOf addr)

/-- `addr - base(z)`: the address relative to its zone (R54). -/
def localOffset (addr : Word) : Word := addr - (zoneOf addr).base

/-- `MemRead(addr, 1)` (R56). A read changes no state (R68). -/
def memRead (s : State) (addr : Word) : Byte :=
  match s.servedBy addr with
  | .ram => s.ramByte addr
  | .basic => Memory.read .basic s.basic (localOffset addr).toNat
  | .kernal => Memory.read .kernal s.kernal (localOffset addr).toNat
  | .char => Memory.read .char s.char (localOffset addr).toNat
  | .cartLo => Memory.read .cartLo s.cartLo (localOffset addr).toNat
  | .cartHi => Memory.read .cartHi s.cartHi (localOffset addr).toNat
  | .io => Memory.read .io s.io (localOffset addr).toNat
  | .openBus => s.cfg.openBusValue

/-- `MemWrite(addr, 1, v)`: every write lands in RAM (R57). -/
def memWrite (s : State) (addr : Word) (v : Byte) : State :=
  s.setRam (Memory.write .ram s.ram addr.toNat v)

/-- `Load16(addr)`: a little-endian word, `addr + 1` modulo 65536 (R64). -/
def load16 (s : State) (addr : Word) : Word := wordOf (s.memRead (addr + 1)) (s.memRead addr)

end State

end Sys2Proof.Machine
end

