-- ==== Sys2Proof/Machine/Ops.lean ====
section
/-! DEFINITION. The named operations the meanings share: fetch (40_cycle.md R111), flag writes (R117), the stack
(R118 to R121), control transfer (R124), taking an interrupt or a break (60_exceptions.md R192, 46_flags_system.md
R182) and the return from it (R183). -/

namespace Sys2Proof.Machine

/-- `STACK_PAGE` (D3). -/
def stackPage : Byte := 0x01

/-- `IRQ_VECTOR` (D2), used by interrupt entry and by BRK. -/
def irqVector : Word := 0xFFFE

/-- The platform's reset vector (D26). -/
def resetVector : Word := 0xFFFC

/-- The address of the stack byte a stack pointer designates (10_state.md R17). -/
def stackAddr (sp : Byte) : Word := wordOf stackPage sp

namespace State

/-- `Fetch()`: advance PC, then read there; the byte and the state after (R111). -/
def fetch (s : State) : Byte × State :=
  let s1 := s.setPc (s.pc + 1)
  (s1.memRead s1.pc, s1)

/-- `setFlagsNZ(v)` (R117). -/
def setNZ (s : State) (v : Byte) : State := s.setFlags (s.flags.setNZ v)

/-- `SR()` (10_state.md R28). -/
def sr (s : State) : Byte := s.flags.sr

/-- `SetSR(v)` (10_state.md R29). -/
def setSr (s : State) (v : Byte) : State := s.setFlags (Flags.ofSr v)

/-- `push(v)`: write, then decrement SP modulo 256 (R118). -/
def push (s : State) (v : Byte) : State :=
  let s1 := s.memWrite (stackAddr s.sp) v
  s1.setSp (s1.sp - 1)

/-- `pull()`: increment SP modulo 256, then read (R119). -/
def pull (s : State) : Byte × State :=
  let s1 := s.setSp (s.sp + 1)
  (s1.memRead (stackAddr s1.sp), s1)

/-- `push16(v)`: high byte first (R120, D10). -/
def push16 (s : State) (v : Word) : State := (s.push (hiByte v)).push (loByte v)

/-- `pull16()`: low byte first (R121, D10). -/
def pull16 (s : State) : Word × State :=
  let lo := s.pull
  let hi := lo.2.pull
  (wordOf hi.1 lo.1, hi.2)

/-- `JumpTo(t)` (R124). -/
def jumpTo (s : State) (t : Word) : State := s.setPc (t - 1)

/-- Emit an advisory signal (10_state.md R41). -/
def emit (s : State) (g : Signal) : State := s.setSignals (s.signals ++ [g])

/-- TAKING AN EXCEPTION, the "stack-push/vector-jump sequence" that interrupt entry and BRK share: push PC + 1, push
the status byte, go to the address stored at the IRQ vector, read through the mode (60_exceptions.md R192,
46_flags_system.md R182). -/
def takeException (s : State) : State :=
  let s1 := s.push16 (s.pc + 1)
  let s2 := s1.push s1.sr
  s2.jumpTo (s2.load16 irqVector)

/-- `Enter()`: one pending request is delivered (60_exceptions.md R192, R193, R195). -/
def enterInterrupt (s : State) : State :=
  let s1 := (s.setPending (s.pending - 1)).takeException.setInService true
  if s1.cfg.irqEntrySetsI then s1.setFlags { s1.flags with i := true } else s1

/-- BRK's entry on its normal path: the shared sequence, then I forced to 1 (46_flags_system.md R182). -/
def enterBreak (s : State) : State :=
  let s1 := s.takeException
  s1.setFlags { s1.flags with i := true }

/-- THE RETURN: pull the status byte, pull the address of the next instruction, go there (46_flags_system.md R183). -/
def returnFromException (s : State) : State :=
  let p := s.pull
  let s1 := p.2.setSr p.1
  let t := s1.pull16
  t.2.jumpTo t.1

end State

end Sys2Proof.Machine
end

