-- ==== Sys2Proof/Machine/Cycle.lean ====
section
/-! DEFINITION. The parts of the fetch/decode/execute cycle around an instruction's meaning (40_cycle.md R110 to
R115): the bytes the fetches read, where the resolver leaves PC, the illegal path, the RTI-flag step, the interrupt
check (60_exceptions.md R191). -/

namespace Sys2Proof.Machine

namespace State

/-- The bytes the next three fetches would read, first the next opcode (R82, R111). Reads have no side effect, so
reading all three at once and decoding them changes nothing (20_memory.md R68; log entry 9). -/
def fetchBytes (s : State) : List Byte := [s.memRead (s.pc + 1), s.memRead (s.pc + 2), s.memRead (s.pc + 3)]

/-- PC after the opcode fetch and the resolver's operand fetches: the last byte they read (10_state.md R19, R104). -/
def afterOperands (s : State) (i : Instr) : State := s.setPc (s.pc + 1 + BitVec.ofNat 16 i.mode.operandBytes)

/-- The illegal path: PC past the byte, and the signal with the byte and its address (R113, 60_exceptions.md R185). -/
def illegalStep (s : State) : State :=
  let f := s.fetch
  f.2.emit (.illegalOpcode f.1 f.2.pc)

/-- Step 4 of the cycle: opcode `$40` (RTI) clears the in-service flag (R114). -/
def rtiFlagStep (s : State) (op : Byte) : State := if op = 0x40 then s.setInService false else s

/-- The delivery condition (60_exceptions.md R190, R191). -/
def interruptDue (s : State) : Bool :=
  decide (0 < s.pending) && !s.flags.i && (!s.cfg.irqGatedByInService || !s.inService)

/-- `CheckIRQ()` (60_exceptions.md R191). -/
def checkIrq (s : State) : State := if s.interruptDue then s.enterInterrupt else s

/-- What every step does after its instruction (R114, R115). -/
def endOfStep (s : State) (op : Byte) : State := (s.rtiFlagStep op).checkIrq

/-- Put a byte where a fetch of `addr` reads it: in the chunk that serves `addr`. -/
def plantByte (s : State) (addr : Word) (v : Byte) : State :=
  let off := (localOffset addr).toNat
  match s.servedBy addr with
  | .ram => s.memWrite addr v
  | .basic => { s with basic := Memory.write .basic s.basic off v }
  | .kernal => { s with kernal := Memory.write .kernal s.kernal off v }
  | .char => { s with char := Memory.write .char s.char off v }
  | .cartLo => { s with cartLo := Memory.write .cartLo s.cartLo off v }
  | .cartHi => { s with cartHi := Memory.write .cartHi s.cartHi off v }
  | .io => { s with io := Memory.write .io s.io off v }
  | .openBus => s

/-- No byte can be placed in an Open zone: if one of the next three fetches would read one, drive GAME to 1, in which
no zone is Open (20_memory.md R55). -/
def withoutOpenFetch (s : State) : State :=
  if s.servedBy (s.pc + 1) = .openBus ∨ s.servedBy (s.pc + 2) = .openBus ∨ s.servedBy (s.pc + 3) = .openBus then
    { s with game := true }
  else s

/-- Place three bytes where the next three fetches read them. The last is placed first, so that a byte placed in the
port, which changes the mode, comes before the bytes routed by it. -/
def plantBytes (s : State) (b0 b1 b2 : Byte) : State :=
  (((s.withoutOpenFetch.plantByte (s.pc + 3) b2).plantByte (s.pc + 2) b1).plantByte (s.pc + 1) b0)

end State

end Sys2Proof.Machine
end

