-- ==== Sys2Proof/Machine/Operands.lean ====
section
/-! DEFINITION. The addressing-mode resolver (30_encoding.md R84 to R97) over operand bytes already fetched, and
reading and writing an operand location (40_cycle.md R122). PC is at the last byte the resolver fetched. -/

namespace Sys2Proof.Machine

/-- A data operand: an addressing mode with its operand bytes (R85, R86, R88 to R93, R95, R96). -/
inductive Operand
  | accumulator
  | immediate (v : Byte)
  | zeroPage (b : Byte)
  | zeroPageX (b : Byte)
  | zeroPageY (b : Byte)
  | absolute (w : Word)
  | absoluteX (w : Word)
  | absoluteY (w : Word)
  | indirectX (b : Byte)
  | indirectY (b : Byte)
deriving DecidableEq, Repr

/-- Where an operand lives (R84): the cases that have a value. `Target` is a plain word here (the three target
operations below) and `None` needs no location (log entry 8). -/
inductive Loc
  | regA
  | imm (v : Byte)
  | mem (ea : Word)
deriving DecidableEq, Repr

namespace State

/-- The word a zero-page pointer `p` designates; its high byte is read at `p + 1` modulo 256, or at the 16-bit
address `p + 1` when `ZP_PTR_WRAP` is false (R95, R96, D19). -/
def zeroPagePointer (s : State) (p : Byte) : Word :=
  let next : Word := if s.cfg.zpPtrWrap then zext16 (p + 1) else zext16 p + 1
  wordOf (s.memRead next) (s.memRead (zext16 p))

/-- The resolver for data operands (R85 to R93, R95, R96). -/
def resolve (s : State) : Operand → Loc
  | .accumulator => .regA
  | .immediate v => .imm v
  | .zeroPage b => .mem (zext16 b)
  | .zeroPageX b => .mem (zext16 (b + s.x))
  | .zeroPageY b => .mem (zext16 (b + s.y))
  | .absolute w => .mem w
  | .absoluteX w => .mem (w + zext16 s.x)
  | .absoluteY w => .mem (w + zext16 s.y)
  | .indirectX b => .mem (s.zeroPagePointer (b + s.x))
  | .indirectY b => .mem (s.zeroPagePointer b + zext16 s.y)

/-- `Target` of an Absolute jump or call (R91). -/
def absoluteTarget (_ : State) (w : Word) : Word := w

/-- `Target` of an Indirect jump: the word at `p`, its high byte in the same page when `JMP_IND_PAGE_BUG` (R94). -/
def indirectTarget (s : State) (p : Word) : Word :=
  let next : Word := if s.cfg.jmpIndPageBug then (p &&& 0xFF00) ||| ((p + 1) &&& 0x00FF) else p + 1
  wordOf (s.memRead next) (s.memRead p)

/-- `Target` of a branch: PC is at the displacement byte, so the next instruction is at PC + 1 (R97). -/
def relativeTarget (s : State) (d : Int) : Word := s.pc + 1 + dispWord d

/-- `readLoc` (R122). -/
def readLoc (s : State) : Loc → Byte
  | .regA => s.a
  | .imm v => v
  | .mem ea => s.memRead ea

/-- `writeLoc` (R122). An immediate has no store-back and is never written; that such a write would leave the state as it
was is the model's choice (DESIGN CHOICE, log entry 8). -/
def writeLoc (s : State) (l : Loc) (v : Byte) : State :=
  match l with
  | .regA => s.setA v
  | .imm _ => s
  | .mem ea => s.memWrite ea v

/-- The value of a data operand. -/
def operand (s : State) (o : Operand) : Byte := s.readLoc (s.resolve o)

end State

end Sys2Proof.Machine
end

