-- ==== Sys2Proof/Machine/Arith.lean ====
section
/-! DEFINITION. Arithmetic, logic, compare, increment and decrement (43_arith_logic.md R144 to R158). -/

namespace Sys2Proof.Machine

/-- ADC (R144). -/
def adc (o : Operand) (s : State) : State :=
  let r := addWithCarry s.cfg.decimalVRule s.flags s.a (s.operand o)
  (s.setA r.1).setFlags r.2

/-- ADC IndirectX, opcode `$61` (R144, R95). -/
def execAdcIndX (b : Byte) (s : State) : Result := .next (adc (.indirectX b) s)

/-- ADC ZeroPage, opcode `$65` (R144, R88). -/
def execAdcZp (b : Byte) (s : State) : Result := .next (adc (.zeroPage b) s)

/-- ADC Immediate, opcode `$69` (R144, R86). -/
def execAdcImm (v : Byte) (s : State) : Result := .next (adc (.immediate v) s)

/-- ADC Absolute, opcode `$6D` (R144, R91). -/
def execAdcAbs (w : Word) (s : State) : Result := .next (adc (.absolute w) s)

/-- ADC IndirectY, opcode `$71` (R144, R96). -/
def execAdcIndY (b : Byte) (s : State) : Result := .next (adc (.indirectY b) s)

/-- ADC ZeroPageX, opcode `$75` (R144, R89). -/
def execAdcZpX (b : Byte) (s : State) : Result := .next (adc (.zeroPageX b) s)

/-- ADC AbsoluteY, opcode `$79` (R144, R93). -/
def execAdcAbsY (w : Word) (s : State) : Result := .next (adc (.absoluteY w) s)

/-- ADC AbsoluteX, opcode `$7D` (R144, R92). -/
def execAdcAbsX (w : Word) (s : State) : Result := .next (adc (.absoluteX w) s)

/-- SBC (R145). -/
def sbc (o : Operand) (s : State) : State :=
  let r := subWithBorrow s.cfg.decimalVRule s.flags s.a (s.operand o)
  (s.setA r.1).setFlags r.2

/-- SBC IndirectX, opcode `$E1` (R145, R95). -/
def execSbcIndX (b : Byte) (s : State) : Result := .next (sbc (.indirectX b) s)

/-- SBC ZeroPage, opcode `$E5` (R145, R88). -/
def execSbcZp (b : Byte) (s : State) : Result := .next (sbc (.zeroPage b) s)

/-- SBC Immediate, opcode `$E9` (R145, R86). -/
def execSbcImm (v : Byte) (s : State) : Result := .next (sbc (.immediate v) s)

/-- SBC Absolute, opcode `$ED` (R145, R91). -/
def execSbcAbs (w : Word) (s : State) : Result := .next (sbc (.absolute w) s)

/-- SBC IndirectY, opcode `$F1` (R145, R96). -/
def execSbcIndY (b : Byte) (s : State) : Result := .next (sbc (.indirectY b) s)

/-- SBC ZeroPageX, opcode `$F5` (R145, R89). -/
def execSbcZpX (b : Byte) (s : State) : Result := .next (sbc (.zeroPageX b) s)

/-- SBC AbsoluteY, opcode `$F9` (R145, R93). -/
def execSbcAbsY (w : Word) (s : State) : Result := .next (sbc (.absoluteY w) s)

/-- SBC AbsoluteX, opcode `$FD` (R145, R92). -/
def execSbcAbsX (w : Word) (s : State) : Result := .next (sbc (.absoluteX w) s)

/-- AND (R146). -/
def andA (o : Operand) (s : State) : State :=
  let r := s.a &&& s.operand o
  (s.setA r).setNZ r

/-- AND IndirectX, opcode `$21` (R146, R95). -/
def execAndIndX (b : Byte) (s : State) : Result := .next (andA (.indirectX b) s)

/-- AND ZeroPage, opcode `$25` (R146, R88). -/
def execAndZp (b : Byte) (s : State) : Result := .next (andA (.zeroPage b) s)

/-- AND Immediate, opcode `$29` (R146, R86). -/
def execAndImm (v : Byte) (s : State) : Result := .next (andA (.immediate v) s)

/-- AND Absolute, opcode `$2D` (R146, R91). -/
def execAndAbs (w : Word) (s : State) : Result := .next (andA (.absolute w) s)

/-- AND IndirectY, opcode `$31` (R146, R96). -/
def execAndIndY (b : Byte) (s : State) : Result := .next (andA (.indirectY b) s)

/-- AND ZeroPageX, opcode `$35` (R146, R89). -/
def execAndZpX (b : Byte) (s : State) : Result := .next (andA (.zeroPageX b) s)

/-- AND AbsoluteY, opcode `$39` (R146, R93). -/
def execAndAbsY (w : Word) (s : State) : Result := .next (andA (.absoluteY w) s)

/-- AND AbsoluteX, opcode `$3D` (R146, R92). -/
def execAndAbsX (w : Word) (s : State) : Result := .next (andA (.absoluteX w) s)

/-- ORA (R147). -/
def oraA (o : Operand) (s : State) : State :=
  let r := s.a ||| s.operand o
  (s.setA r).setNZ r

/-- ORA IndirectX, opcode `$01` (R147, R95). -/
def execOraIndX (b : Byte) (s : State) : Result := .next (oraA (.indirectX b) s)

/-- ORA ZeroPage, opcode `$05` (R147, R88). -/
def execOraZp (b : Byte) (s : State) : Result := .next (oraA (.zeroPage b) s)

/-- ORA Immediate, opcode `$09` (R147, R86). -/
def execOraImm (v : Byte) (s : State) : Result := .next (oraA (.immediate v) s)

/-- ORA Absolute, opcode `$0D` (R147, R91). -/
def execOraAbs (w : Word) (s : State) : Result := .next (oraA (.absolute w) s)

/-- ORA IndirectY, opcode `$11` (R147, R96). -/
def execOraIndY (b : Byte) (s : State) : Result := .next (oraA (.indirectY b) s)

/-- ORA ZeroPageX, opcode `$15` (R147, R89). -/
def execOraZpX (b : Byte) (s : State) : Result := .next (oraA (.zeroPageX b) s)

/-- ORA AbsoluteY, opcode `$19` (R147, R93). -/
def execOraAbsY (w : Word) (s : State) : Result := .next (oraA (.absoluteY w) s)

/-- ORA AbsoluteX, opcode `$1D` (R147, R92). -/
def execOraAbsX (w : Word) (s : State) : Result := .next (oraA (.absoluteX w) s)

/-- EOR (R148). -/
def eorA (o : Operand) (s : State) : State :=
  let r := s.a ^^^ s.operand o
  (s.setA r).setNZ r

/-- EOR IndirectX, opcode `$41` (R148, R95). -/
def execEorIndX (b : Byte) (s : State) : Result := .next (eorA (.indirectX b) s)

/-- EOR ZeroPage, opcode `$45` (R148, R88). -/
def execEorZp (b : Byte) (s : State) : Result := .next (eorA (.zeroPage b) s)

/-- EOR Immediate, opcode `$49` (R148, R86). -/
def execEorImm (v : Byte) (s : State) : Result := .next (eorA (.immediate v) s)

/-- EOR Absolute, opcode `$4D` (R148, R91). -/
def execEorAbs (w : Word) (s : State) : Result := .next (eorA (.absolute w) s)

/-- EOR IndirectY, opcode `$51` (R148, R96). -/
def execEorIndY (b : Byte) (s : State) : Result := .next (eorA (.indirectY b) s)

/-- EOR ZeroPageX, opcode `$55` (R148, R89). -/
def execEorZpX (b : Byte) (s : State) : Result := .next (eorA (.zeroPageX b) s)

/-- EOR AbsoluteY, opcode `$59` (R148, R93). -/
def execEorAbsY (w : Word) (s : State) : Result := .next (eorA (.absoluteY w) s)

/-- EOR AbsoluteX, opcode `$5D` (R148, R92). -/
def execEorAbsX (w : Word) (s : State) : Result := .next (eorA (.absoluteX w) s)

/-- BIT: A is not written (R149). -/
def bitA (o : Operand) (s : State) : State := s.setFlags (s.flags.bitTest s.a (s.operand o))

/-- BIT ZeroPage, opcode `$24` (R149, R88). -/
def execBitZp (b : Byte) (s : State) : Result := .next (bitA (.zeroPage b) s)

/-- BIT Absolute, opcode `$2C` (R149, R91). -/
def execBitAbs (w : Word) (s : State) : Result := .next (bitA (.absolute w) s)

/-- CMP (R150). -/
def cmp (o : Operand) (s : State) : State := s.setFlags (s.flags.compare s.a (s.operand o))

/-- CMP IndirectX, opcode `$C1` (R150, R95). -/
def execCmpIndX (b : Byte) (s : State) : Result := .next (cmp (.indirectX b) s)

/-- CMP ZeroPage, opcode `$C5` (R150, R88). -/
def execCmpZp (b : Byte) (s : State) : Result := .next (cmp (.zeroPage b) s)

/-- CMP Immediate, opcode `$C9` (R150, R86). -/
def execCmpImm (v : Byte) (s : State) : Result := .next (cmp (.immediate v) s)

/-- CMP Absolute, opcode `$CD` (R150, R91). -/
def execCmpAbs (w : Word) (s : State) : Result := .next (cmp (.absolute w) s)

/-- CMP IndirectY, opcode `$D1` (R150, R96). -/
def execCmpIndY (b : Byte) (s : State) : Result := .next (cmp (.indirectY b) s)

/-- CMP ZeroPageX, opcode `$D5` (R150, R89). -/
def execCmpZpX (b : Byte) (s : State) : Result := .next (cmp (.zeroPageX b) s)

/-- CMP AbsoluteY, opcode `$D9` (R150, R93). -/
def execCmpAbsY (w : Word) (s : State) : Result := .next (cmp (.absoluteY w) s)

/-- CMP AbsoluteX, opcode `$DD` (R150, R92). -/
def execCmpAbsX (w : Word) (s : State) : Result := .next (cmp (.absoluteX w) s)

/-- CPX (R151). -/
def cpx (o : Operand) (s : State) : State := s.setFlags (s.flags.compare s.x (s.operand o))

/-- CPX Immediate, opcode `$E0` (R151, R86). -/
def execCpxImm (v : Byte) (s : State) : Result := .next (cpx (.immediate v) s)

/-- CPX ZeroPage, opcode `$E4` (R151, R88). -/
def execCpxZp (b : Byte) (s : State) : Result := .next (cpx (.zeroPage b) s)

/-- CPX Absolute, opcode `$EC` (R151, R91). -/
def execCpxAbs (w : Word) (s : State) : Result := .next (cpx (.absolute w) s)

/-- CPY (R152). -/
def cpy (o : Operand) (s : State) : State := s.setFlags (s.flags.compare s.y (s.operand o))

/-- CPY Immediate, opcode `$C0` (R152, R86). -/
def execCpyImm (v : Byte) (s : State) : Result := .next (cpy (.immediate v) s)

/-- CPY ZeroPage, opcode `$C4` (R152, R88). -/
def execCpyZp (b : Byte) (s : State) : Result := .next (cpy (.zeroPage b) s)

/-- CPY Absolute, opcode `$CC` (R152, R91). -/
def execCpyAbs (w : Word) (s : State) : Result := .next (cpy (.absolute w) s)

/-- INC: one read through the mode, one write to RAM (R153, 20_memory.md R79). -/
def inc (o : Operand) (s : State) : State :=
  let r := s.operand o + 1
  (s.writeLoc (s.resolve o) r).setNZ r

/-- INC ZeroPage, opcode `$E6` (R153, R88). -/
def execIncZp (b : Byte) (s : State) : Result := .next (inc (.zeroPage b) s)

/-- INC Absolute, opcode `$EE` (R153, R91). -/
def execIncAbs (w : Word) (s : State) : Result := .next (inc (.absolute w) s)

/-- INC ZeroPageX, opcode `$F6` (R153, R89). -/
def execIncZpX (b : Byte) (s : State) : Result := .next (inc (.zeroPageX b) s)

/-- INC AbsoluteX, opcode `$FE` (R153, R92). -/
def execIncAbsX (w : Word) (s : State) : Result := .next (inc (.absoluteX w) s)

/-- DEC (R154). -/
def dec (o : Operand) (s : State) : State :=
  let r := s.operand o - 1
  (s.writeLoc (s.resolve o) r).setNZ r

/-- DEC ZeroPage, opcode `$C6` (R154, R88). -/
def execDecZp (b : Byte) (s : State) : Result := .next (dec (.zeroPage b) s)

/-- DEC Absolute, opcode `$CE` (R154, R91). -/
def execDecAbs (w : Word) (s : State) : Result := .next (dec (.absolute w) s)

/-- DEC ZeroPageX, opcode `$D6` (R154, R89). -/
def execDecZpX (b : Byte) (s : State) : Result := .next (dec (.zeroPageX b) s)

/-- DEC AbsoluteX, opcode `$DE` (R154, R92). -/
def execDecAbsX (w : Word) (s : State) : Result := .next (dec (.absoluteX w) s)

/-- INX, opcode `$E8` (R155). -/
def execInx (s : State) : Result := .next ((s.setX (s.x + 1)).setNZ (s.x + 1))

/-- INY, opcode `$C8` (R156). -/
def execIny (s : State) : Result := .next ((s.setY (s.y + 1)).setNZ (s.y + 1))

/-- DEX, opcode `$CA` (R157). -/
def execDex (s : State) : Result := .next ((s.setX (s.x - 1)).setNZ (s.x - 1))

/-- DEY, opcode `$88` (R158). -/
def execDey (s : State) : Result := .next ((s.setY (s.y - 1)).setNZ (s.y - 1))

end Sys2Proof.Machine
end

