-- ==== Sys2Proof/Machine/Control.lean ====
section
/-! DEFINITION. Jumps, subroutine call and return, branches (45_control.md R163 to R173). -/

namespace Sys2Proof.Machine

/-- JMP Absolute, opcode `$4C` (R163, R91). -/
def execJmpAbs (w : Word) (s : State) : Result := .next (s.jumpTo (s.absoluteTarget w))

/-- JMP Indirect, opcode `$6C` (R163, R94). -/
def execJmpInd (w : Word) (s : State) : Result := .next (s.jumpTo (s.indirectTarget w))

/-- JSR: push the address of its own last byte, which PC holds (R164, D17). -/
def jsr (t : Word) (s : State) : State := (s.push16 s.pc).jumpTo t

/-- JSR Absolute, opcode `$20` (R164, R91). -/
def execJsrAbs (w : Word) (s : State) : Result := .next (jsr (s.absoluteTarget w) s)

/-- RTS: PC takes the pulled word itself (R165, D17). -/
def rts (s : State) : State :=
  let p := s.pull16
  p.2.setPc p.1

/-- RTS, opcode `$60` (R165). -/
def execRts (s : State) : Result := .next (rts s)

/-- The branches: jump to the target when the condition holds, else fall through (R166 to R173). -/
def branch (cond : Bool) (t : Word) (s : State) : State := if cond then s.jumpTo t else s

/-- BCC Relative, opcode `$90` (R166, R97). -/
def execBcc (d : Int) (s : State) : Result := .next (branch (!s.flags.c) (s.relativeTarget d) s)

/-- BCS Relative, opcode `$B0` (R167, R97). -/
def execBcs (d : Int) (s : State) : Result := .next (branch s.flags.c (s.relativeTarget d) s)

/-- BEQ Relative, opcode `$F0` (R168, R97). -/
def execBeq (d : Int) (s : State) : Result := .next (branch s.flags.z (s.relativeTarget d) s)

/-- BMI Relative, opcode `$30` (R169, R97). -/
def execBmi (d : Int) (s : State) : Result := .next (branch s.flags.n (s.relativeTarget d) s)

/-- BNE Relative, opcode `$D0` (R170, R97). -/
def execBne (d : Int) (s : State) : Result := .next (branch (!s.flags.z) (s.relativeTarget d) s)

/-- BPL Relative, opcode `$10` (R171, R97). -/
def execBpl (d : Int) (s : State) : Result := .next (branch (!s.flags.n) (s.relativeTarget d) s)

/-- BVC Relative, opcode `$50` (R172, R97). -/
def execBvc (d : Int) (s : State) : Result := .next (branch (!s.flags.v) (s.relativeTarget d) s)

/-- BVS Relative, opcode `$70` (R173, R97). -/
def execBvs (d : Int) (s : State) : Result := .next (branch s.flags.v (s.relativeTarget d) s)

end Sys2Proof.Machine
end

