-- ==== Sys2Proof/Machine/LoadStore.lean ====
section
/-! DEFINITION. Loads and stores (41_load_store.md R125 to R130): one operation per mnemonic over its operand, and one
meaning per opcode. -/

namespace Sys2Proof.Machine

/-- LDA (R125). -/
def lda (o : Operand) (s : State) : State :=
  let v := s.operand o
  (s.setA v).setNZ v

/-- LDA IndirectX, opcode `$A1` (R125, R95). -/
def execLdaIndX (b : Byte) (s : State) : Result := .next (lda (.indirectX b) s)

/-- LDA ZeroPage, opcode `$A5` (R125, R88). -/
def execLdaZp (b : Byte) (s : State) : Result := .next (lda (.zeroPage b) s)

/-- LDA Immediate, opcode `$A9` (R125, R86). -/
def execLdaImm (v : Byte) (s : State) : Result := .next (lda (.immediate v) s)

/-- LDA Absolute, opcode `$AD` (R125, R91). -/
def execLdaAbs (w : Word) (s : State) : Result := .next (lda (.absolute w) s)

/-- LDA IndirectY, opcode `$B1` (R125, R96). -/
def execLdaIndY (b : Byte) (s : State) : Result := .next (lda (.indirectY b) s)

/-- LDA ZeroPageX, opcode `$B5` (R125, R89). -/
def execLdaZpX (b : Byte) (s : State) : Result := .next (lda (.zeroPageX b) s)

/-- LDA AbsoluteY, opcode `$B9` (R125, R93). -/
def execLdaAbsY (w : Word) (s : State) : Result := .next (lda (.absoluteY w) s)

/-- LDA AbsoluteX, opcode `$BD` (R125, R92). -/
def execLdaAbsX (w : Word) (s : State) : Result := .next (lda (.absoluteX w) s)

/-- LDX (R126). -/
def ldx (o : Operand) (s : State) : State :=
  let v := s.operand o
  (s.setX v).setNZ v

/-- LDX Immediate, opcode `$A2` (R126, R86). -/
def execLdxImm (v : Byte) (s : State) : Result := .next (ldx (.immediate v) s)

/-- LDX ZeroPage, opcode `$A6` (R126, R88). -/
def execLdxZp (b : Byte) (s : State) : Result := .next (ldx (.zeroPage b) s)

/-- LDX Absolute, opcode `$AE` (R126, R91). -/
def execLdxAbs (w : Word) (s : State) : Result := .next (ldx (.absolute w) s)

/-- LDX ZeroPageY, opcode `$B6` (R126, R90). -/
def execLdxZpY (b : Byte) (s : State) : Result := .next (ldx (.zeroPageY b) s)

/-- LDX AbsoluteY, opcode `$BE` (R126, R93). -/
def execLdxAbsY (w : Word) (s : State) : Result := .next (ldx (.absoluteY w) s)

/-- LDY (R127). -/
def ldy (o : Operand) (s : State) : State :=
  let v := s.operand o
  (s.setY v).setNZ v

/-- LDY Immediate, opcode `$A0` (R127, R86). -/
def execLdyImm (v : Byte) (s : State) : Result := .next (ldy (.immediate v) s)

/-- LDY ZeroPage, opcode `$A4` (R127, R88). -/
def execLdyZp (b : Byte) (s : State) : Result := .next (ldy (.zeroPage b) s)

/-- LDY Absolute, opcode `$AC` (R127, R91). -/
def execLdyAbs (w : Word) (s : State) : Result := .next (ldy (.absolute w) s)

/-- LDY ZeroPageX, opcode `$B4` (R127, R89). -/
def execLdyZpX (b : Byte) (s : State) : Result := .next (ldy (.zeroPageX b) s)

/-- LDY AbsoluteX, opcode `$BC` (R127, R92). -/
def execLdyAbsX (w : Word) (s : State) : Result := .next (ldy (.absoluteX w) s)

/-- STA: the target is not read first (R128, D39). -/
def sta (o : Operand) (s : State) : State := s.writeLoc (s.resolve o) s.a

/-- STA IndirectX, opcode `$81` (R128, R95). -/
def execStaIndX (b : Byte) (s : State) : Result := .next (sta (.indirectX b) s)

/-- STA ZeroPage, opcode `$85` (R128, R88). -/
def execStaZp (b : Byte) (s : State) : Result := .next (sta (.zeroPage b) s)

/-- STA Absolute, opcode `$8D` (R128, R91). -/
def execStaAbs (w : Word) (s : State) : Result := .next (sta (.absolute w) s)

/-- STA IndirectY, opcode `$91` (R128, R96). -/
def execStaIndY (b : Byte) (s : State) : Result := .next (sta (.indirectY b) s)

/-- STA ZeroPageX, opcode `$95` (R128, R89). -/
def execStaZpX (b : Byte) (s : State) : Result := .next (sta (.zeroPageX b) s)

/-- STA AbsoluteY, opcode `$99` (R128, R93). -/
def execStaAbsY (w : Word) (s : State) : Result := .next (sta (.absoluteY w) s)

/-- STA AbsoluteX, opcode `$9D` (R128, R92). -/
def execStaAbsX (w : Word) (s : State) : Result := .next (sta (.absoluteX w) s)

/-- STX (R129). -/
def stx (o : Operand) (s : State) : State := s.writeLoc (s.resolve o) s.x

/-- STX ZeroPage, opcode `$86` (R129, R88). -/
def execStxZp (b : Byte) (s : State) : Result := .next (stx (.zeroPage b) s)

/-- STX Absolute, opcode `$8E` (R129, R91). -/
def execStxAbs (w : Word) (s : State) : Result := .next (stx (.absolute w) s)

/-- STX ZeroPageY, opcode `$96` (R129, R90). -/
def execStxZpY (b : Byte) (s : State) : Result := .next (stx (.zeroPageY b) s)

/-- STY (R130). -/
def sty (o : Operand) (s : State) : State := s.writeLoc (s.resolve o) s.y

/-- STY ZeroPage, opcode `$84` (R130, R88). -/
def execStyZp (b : Byte) (s : State) : Result := .next (sty (.zeroPage b) s)

/-- STY Absolute, opcode `$8C` (R130, R91). -/
def execStyAbs (w : Word) (s : State) : Result := .next (sty (.absolute w) s)

/-- STY ZeroPageX, opcode `$94` (R130, R89). -/
def execStyZpX (b : Byte) (s : State) : Result := .next (sty (.zeroPageX b) s)

end Sys2Proof.Machine
end

