-- ==== Sys2Proof/Machine/Shift.lean ====
section
/-! DEFINITION. Shifts and rotates (44_shift_rotate.md R159 to R162): a register or a read-modify-write form. -/

namespace Sys2Proof.Machine

/-- Read the location, compute the byte and the flags from it, store back (R122, 20_memory.md R79). -/
def modify (f : Flags → Byte → Byte × Flags) (o : Operand) (s : State) : State :=
  let r := f s.flags (s.operand o)
  (s.writeLoc (s.resolve o) r.1).setFlags r.2

/-- ASL ZeroPage, opcode `$06` (R159, R88). -/
def execAslZp (b : Byte) (s : State) : Result := .next (modify shiftLeft (.zeroPage b) s)

/-- ASL Accumulator, opcode `$0A` (R159, R85). -/
def execAslAcc (s : State) : Result := .next (modify shiftLeft .accumulator s)

/-- ASL Absolute, opcode `$0E` (R159, R91). -/
def execAslAbs (w : Word) (s : State) : Result := .next (modify shiftLeft (.absolute w) s)

/-- ASL ZeroPageX, opcode `$16` (R159, R89). -/
def execAslZpX (b : Byte) (s : State) : Result := .next (modify shiftLeft (.zeroPageX b) s)

/-- ASL AbsoluteX, opcode `$1E` (R159, R92). -/
def execAslAbsX (w : Word) (s : State) : Result := .next (modify shiftLeft (.absoluteX w) s)

/-- LSR ZeroPage, opcode `$46` (R160, R88). -/
def execLsrZp (b : Byte) (s : State) : Result := .next (modify shiftRight (.zeroPage b) s)

/-- LSR Accumulator, opcode `$4A` (R160, R85). -/
def execLsrAcc (s : State) : Result := .next (modify shiftRight .accumulator s)

/-- LSR Absolute, opcode `$4E` (R160, R91). -/
def execLsrAbs (w : Word) (s : State) : Result := .next (modify shiftRight (.absolute w) s)

/-- LSR ZeroPageX, opcode `$56` (R160, R89). -/
def execLsrZpX (b : Byte) (s : State) : Result := .next (modify shiftRight (.zeroPageX b) s)

/-- LSR AbsoluteX, opcode `$5E` (R160, R92). -/
def execLsrAbsX (w : Word) (s : State) : Result := .next (modify shiftRight (.absoluteX w) s)

/-- ROL ZeroPage, opcode `$26` (R161, R88). -/
def execRolZp (b : Byte) (s : State) : Result := .next (modify rotateLeft (.zeroPage b) s)

/-- ROL Accumulator, opcode `$2A` (R161, R85). -/
def execRolAcc (s : State) : Result := .next (modify rotateLeft .accumulator s)

/-- ROL Absolute, opcode `$2E` (R161, R91). -/
def execRolAbs (w : Word) (s : State) : Result := .next (modify rotateLeft (.absolute w) s)

/-- ROL ZeroPageX, opcode `$36` (R161, R89). -/
def execRolZpX (b : Byte) (s : State) : Result := .next (modify rotateLeft (.zeroPageX b) s)

/-- ROL AbsoluteX, opcode `$3E` (R161, R92). -/
def execRolAbsX (w : Word) (s : State) : Result := .next (modify rotateLeft (.absoluteX w) s)

/-- ROR ZeroPage, opcode `$66` (R162, R88). -/
def execRorZp (b : Byte) (s : State) : Result := .next (modify rotateRight (.zeroPage b) s)

/-- ROR Accumulator, opcode `$6A` (R162, R85). -/
def execRorAcc (s : State) : Result := .next (modify rotateRight .accumulator s)

/-- ROR Absolute, opcode `$6E` (R162, R91). -/
def execRorAbs (w : Word) (s : State) : Result := .next (modify rotateRight (.absolute w) s)

/-- ROR ZeroPageX, opcode `$76` (R162, R89). -/
def execRorZpX (b : Byte) (s : State) : Result := .next (modify rotateRight (.zeroPageX b) s)

/-- ROR AbsoluteX, opcode `$7E` (R162, R92). -/
def execRorAbsX (w : Word) (s : State) : Result := .next (modify rotateRight (.absoluteX w) s)

end Sys2Proof.Machine
end

