-- ==== Sys2Proof/Machine/System.lean ====
section
/-! DEFINITION. Flag instructions, NOP, BRK and RTI (46_flags_system.md R174 to R183). -/

namespace Sys2Proof.Machine

/-- CLC, opcode `$18` (R174). -/
def execClc (s : State) : Result := .next (s.setFlags { s.flags with c := false })

/-- CLD, opcode `$D8` (R175). -/
def execCld (s : State) : Result := .next (s.setFlags { s.flags with d := false })

/-- CLI, opcode `$58` (R176). -/
def execCli (s : State) : Result := .next (s.setFlags { s.flags with i := false })

/-- CLV, opcode `$B8` (R177). -/
def execClv (s : State) : Result := .next (s.setFlags { s.flags with v := false })

/-- SEC, opcode `$38` (R178). -/
def execSec (s : State) : Result := .next (s.setFlags { s.flags with c := true })

/-- SED, opcode `$F8` (R179). -/
def execSed (s : State) : Result := .next (s.setFlags { s.flags with d := true })

/-- SEI, opcode `$78` (R180). -/
def execSei (s : State) : Result := .next (s.setFlags { s.flags with i := true })

/-- NOP, opcode `$EA` (R181). -/
def execNop (s : State) : Result := .next s

/-- BRK (R182, D14, D15): B is set first, the executor fetches the padding byte and ignores it, then either the stop
signal or the push and jump with I forced to 1. -/
def brk (s : State) : State :=
  let s1 := (s.setFlags { s.flags with b := true }).fetch.2
  if s1.stopOnBreak then s1.emit .breakStop else s1.enterBreak

/-- BRK, opcode `$00` (R182). -/
def execBrk (_pad : Byte) (s : State) : Result := .next (brk s)

/-- RTI, opcode `$40` (R183). -/
def execRti (s : State) : Result := .next s.returnFromException

end Sys2Proof.Machine
end

