-- ==== Sys2Proof/Machine/TransferStack.lean ====
section
/-! DEFINITION. Register transfers and stack operations (42_transfer_stack.md R131 to R140). All are Implied. -/

namespace Sys2Proof.Machine

/-- TAX, opcode `$AA` (R131). -/
def execTax (s : State) : Result := .next ((s.setX s.a).setNZ s.a)

/-- TAY, opcode `$A8` (R132). -/
def execTay (s : State) : Result := .next ((s.setY s.a).setNZ s.a)

/-- TXA, opcode `$8A` (R133). -/
def execTxa (s : State) : Result := .next ((s.setA s.x).setNZ s.x)

/-- TYA, opcode `$98` (R134). -/
def execTya (s : State) : Result := .next ((s.setA s.y).setNZ s.y)

/-- TSX, opcode `$BA` (R135). -/
def execTsx (s : State) : Result := .next ((s.setX s.sp).setNZ s.sp)

/-- TXS, opcode `$9A` (R136). -/
def execTxs (s : State) : Result := .next (s.setSp s.x)

/-- PHA, opcode `$48` (R137). -/
def execPha (s : State) : Result := .next (s.push s.a)

/-- PHP, opcode `$08` (R138). -/
def execPhp (s : State) : Result := .next (s.push s.sr)

/-- PLA (R139). -/
def pla (s : State) : State :=
  let p := s.pull
  (p.2.setA p.1).setNZ p.1

/-- PLA, opcode `$68` (R139). -/
def execPla (s : State) : Result := .next (pla s)

/-- PLP: all seven flags from the pulled byte (R140). -/
def plp (s : State) : State :=
  let p := s.pull
  p.2.setSr p.1

/-- PLP, opcode `$28` (R140). -/
def execPlp (s : State) : Result := .next (plp s)

end Sys2Proof.Machine
end

