-- ==== Sys2Proof/Machine/Step.lean ====
section
/-! DEFINITION. One step of the machine (40_cycle.md R110), and the host's way to place an instruction. -/

namespace Sys2Proof.Machine

/-- Finish a step whose instruction had the opcode byte `op` (R114, R115). -/
def finishStep (op : Byte) : Result → Result
  | .next t => .next (t.endOfStep op)
  | .fault r => .fault r
  | .refused r => .refused r

/-- `Next()`: fetch and decode at PC + 1, execute or take the illegal path, then the RTI-flag step and the interrupt
check (R110). The step starts with no signals. -/
def step (s : State) : Host.Outcome State Fault Refusal :=
  let s0 := s.setSignals []
  let op := s0.memRead (s0.pc + 1)
  match decode s0.fetchBytes with
  | .ok (i, _) => finishStep op (exec i (s0.afterOperands i))
  | .error _ => finishStep op (.next s0.illegalStep)

/-- The state with the instruction whose bits are `w` stored where the next step fetches (log entry 5). -/
def State.withFetchWord (s : State) (nbits w : Nat) : State :=
  match tableBytes nbits w with
  | [b0, b1, b2] => s.plantBytes b0 b1 b2
  | _ => s

end Sys2Proof.Machine
end

