-- ==== Sys2Proof/Machine/Interface.lean ====
section
/-! DEFINITION. The host's transactions, each made between two steps (10_state.md R40, R43 to R47; 20_memory.md R74).
`step` makes none of them (log entry 10). -/

namespace Sys2Proof.Machine

namespace State

/-- RaiseIRQ: one more request, saturating at the capacity (60_exceptions.md R189). -/
def raiseIrq (s : State) : State := s.setPending (min (s.pending + 1) s.cfg.irqQueueCap)

/-- SetCartLines (R44). -/
def setCartLines (s : State) (game exrom : Bool) : State := { s with game := game, exrom := exrom }

/-- Peek (R45, D31). -/
def peek (s : State) (addr : Word) : Byte := s.memRead addr

/-- Poke (R45, D31). -/
def poke (s : State) (addr : Word) (v : Byte) : State := s.memWrite addr v

/-- A device's write to the I/O chunk (R38, R47, D30): `off` is the offset in its 4 KiB. -/
def deviceWrite (s : State) (off : BitVec 12) (v : Byte) : State :=
  { s with io := Memory.write .io s.io off.toNat v }

/-- Set or clear the stop-on-break mode (R40). -/
def setStopOnBreak (s : State) (v : Bool) : State := { s with stopOnBreak := v }

/-- LoadROM (R47, D29): the chunk holds the buffer from its first byte; a byte past the chunk's size is dropped, a
byte not given reads as an unlisted one. Only the five ROM chunks are loaded. -/
def loadRom (s : State) (k : ChunkKind) (bytes : List Byte) : State :=
  let m := Memory.image k 0 (bytes.take k.size)
  match k with
  | .basic => { s with basic := m }
  | .kernal => { s with kernal := m }
  | .char => { s with char := m }
  | .cartLo => { s with cartLo := m }
  | .cartHi => { s with cartHi := m }
  | .ram | .io | .openBus => s

end State

/-- What the host may read of the processor (R46). -/
structure Snapshot where
  pc : Word
  a : Byte
  x : Byte
  y : Byte
  sp : Byte
  flags : Flags
deriving DecidableEq, Repr

/-- Snapshot (R46): a read-only view. -/
def State.snapshot (s : State) : Snapshot :=
  { pc := s.pc, a := s.a, x := s.x, y := s.y, sp := s.sp, flags := s.flags }

end Sys2Proof.Machine
end

