-- ==== Sys2Proof/Machine/Reset.lean ====
section
/-! DEFINITION. Reset as the spec describes it: the creation of the block from launch inputs
(70_reset_and_hazards.md R205 to R213). -/

namespace Sys2Proof.Machine

/-- The launch inputs: every value the spec leaves unspecified at reset (R205, R208 to R211), and the parameters. -/
structure Launch where
  a : Byte
  x : Byte
  y : Byte
  sp : Byte
  flags : Flags
  ram : Memory
  basic : Memory
  kernal : Memory
  char : Memory
  cartLo : Memory
  cartHi : Memory
  io : Memory
  /-- The GAME line, 1 "unless the launch sets them" (R205, D27). -/
  game : Bool
  /-- The EXROM line, as GAME. -/
  exrom : Bool
  stopOnBreak : Bool
  cfg : Config
deriving DecidableEq, Repr

/-- The state a launch creates, before PC is set. -/
def Launch.created (l : Launch) : State :=
  { pc := 0, a := l.a, x := l.x, y := l.y, sp := l.sp, flags := l.flags, pending := 0, inService := false
    ram := l.ram, basic := l.basic, kernal := l.kernal, char := l.char, cartLo := l.cartLo, cartHi := l.cartHi
    io := l.io, game := l.game, exrom := l.exrom, stopOnBreak := l.stopOnBreak, cfg := l.cfg, signals := [] }

/-- `RESET_ENTRY` (R206, D26): a fixed address, or the platform reading `Load16($FFFC)` through the mode at reset. -/
def Launch.entry (l : Launch) : Word :=
  match l.cfg.resetEntry with
  | some t => t
  | none => l.created.load16 resetVector

/-- `Reset(launch)` (R205). -/
def resetFrom (l : Launch) : State := l.created.setPc (l.entry - 1)

/-- The launch `State.reset` stands for (log entries 2 to 6). -/
def Launch.standard : Launch :=
  { a := 0x00, x := 0x00, y := 0x00, sp := 0xFF
    flags := { c := false, z := false, i := true, d := false, b := false, v := false, n := false }
    ram := [], basic := [], kernal := [], char := [], cartLo := [], cartHi := [], io := []
    game := true, exrom := true, stopOnBreak := true, cfg := Config.standard }

end Sys2Proof.Machine
end

