-- ==== Sys2Proof/Safety.lean ====
section
/-! DEFINITION. The terms safety claims use: a step completes (00_scope.md R12), and the invariant of the state. -/

namespace Sys2Proof.Machine

/-- The step answers a next state: no fault, no refusal (R12, 60_exceptions.md R184). -/
def Completes (s : State) : Prop := ∃ t, step s = .next t

/-- The invariant: every chunk is in canonical form, and the latch stays within its capacity, which is at least 1
(10_state.md R31, D11). -/
def State.Inv (s : State) : Prop :=
  Memory.wf .ram s.ram = true ∧ Memory.wf .basic s.basic = true ∧ Memory.wf .kernal s.kernal = true ∧
  Memory.wf .char s.char = true ∧ Memory.wf .cartLo s.cartLo = true ∧ Memory.wf .cartHi s.cartHi = true ∧
  Memory.wf .io s.io = true ∧ s.pending ≤ s.cfg.irqQueueCap ∧ 1 ≤ s.cfg.irqQueueCap

end Sys2Proof.Machine
end

