-- ==== Sys2Proof/Certificates/Slice0/Obligations.lean ====
section
/-! DEFINITION. The statements for the provers. The vocabulary comes first; numbers are used where the spec's rule is
about numbers, so that a statement does not repeat the model's own expression. -/

namespace Sys2Proof.Claims

open Sys2Proof.Machine

/-- An opcode, its instruction, its data operand. -/
abbrev Form := Byte × Instr × Operand

/-- The forms of LDA: opcode, instruction, operand (R125). -/
def ldaForms (v b : Byte) (w : Word) : List Form :=
  [(0xA1, .ldaIndX b, .indirectX b), (0xA5, .ldaZp b, .zeroPage b), (0xA9, .ldaImm v, .immediate v),
   (0xAD, .ldaAbs w, .absolute w), (0xB1, .ldaIndY b, .indirectY b), (0xB5, .ldaZpX b, .zeroPageX b),
   (0xB9, .ldaAbsY w, .absoluteY w), (0xBD, .ldaAbsX w, .absoluteX w)]

/-- The forms of LDX: opcode, instruction, operand (R126). -/
def ldxForms (v b : Byte) (w : Word) : List Form :=
  [(0xA2, .ldxImm v, .immediate v), (0xA6, .ldxZp b, .zeroPage b), (0xAE, .ldxAbs w, .absolute w),
   (0xB6, .ldxZpY b, .zeroPageY b), (0xBE, .ldxAbsY w, .absoluteY w)]

/-- The forms of LDY: opcode, instruction, operand (R127). -/
def ldyForms (v b : Byte) (w : Word) : List Form :=
  [(0xA0, .ldyImm v, .immediate v), (0xA4, .ldyZp b, .zeroPage b), (0xAC, .ldyAbs w, .absolute w),
   (0xB4, .ldyZpX b, .zeroPageX b), (0xBC, .ldyAbsX w, .absoluteX w)]

/-- The forms of STA: opcode, instruction, operand (R128). -/
def staForms (b : Byte) (w : Word) : List Form :=
  [(0x81, .staIndX b, .indirectX b), (0x85, .staZp b, .zeroPage b), (0x8D, .staAbs w, .absolute w),
   (0x91, .staIndY b, .indirectY b), (0x95, .staZpX b, .zeroPageX b), (0x99, .staAbsY w, .absoluteY w),
   (0x9D, .staAbsX w, .absoluteX w)]

/-- The forms of STX: opcode, instruction, operand (R129). -/
def stxForms (b : Byte) (w : Word) : List Form :=
  [(0x86, .stxZp b, .zeroPage b), (0x8E, .stxAbs w, .absolute w), (0x96, .stxZpY b, .zeroPageY b)]

/-- The forms of STY: opcode, instruction, operand (R130). -/
def styForms (b : Byte) (w : Word) : List Form :=
  [(0x84, .styZp b, .zeroPage b), (0x8C, .styAbs w, .absolute w), (0x94, .styZpX b, .zeroPageX b)]

/-- The forms of ADC: opcode, instruction, operand (R144). -/
def adcForms (v b : Byte) (w : Word) : List Form :=
  [(0x61, .adcIndX b, .indirectX b), (0x65, .adcZp b, .zeroPage b), (0x69, .adcImm v, .immediate v),
   (0x6D, .adcAbs w, .absolute w), (0x71, .adcIndY b, .indirectY b), (0x75, .adcZpX b, .zeroPageX b),
   (0x79, .adcAbsY w, .absoluteY w), (0x7D, .adcAbsX w, .absoluteX w)]

/-- The forms of SBC: opcode, instruction, operand (R145). -/
def sbcForms (v b : Byte) (w : Word) : List Form :=
  [(0xE1, .sbcIndX b, .indirectX b), (0xE5, .sbcZp b, .zeroPage b), (0xE9, .sbcImm v, .immediate v),
   (0xED, .sbcAbs w, .absolute w), (0xF1, .sbcIndY b, .indirectY b), (0xF5, .sbcZpX b, .zeroPageX b),
   (0xF9, .sbcAbsY w, .absoluteY w), (0xFD, .sbcAbsX w, .absoluteX w)]

/-- The forms of AND: opcode, instruction, operand (R146). -/
def andForms (v b : Byte) (w : Word) : List Form :=
  [(0x21, .andIndX b, .indirectX b), (0x25, .andZp b, .zeroPage b), (0x29, .andImm v, .immediate v),
   (0x2D, .andAbs w, .absolute w), (0x31, .andIndY b, .indirectY b), (0x35, .andZpX b, .zeroPageX b),
   (0x39, .andAbsY w, .absoluteY w), (0x3D, .andAbsX w, .absoluteX w)]

/-- The forms of ORA: opcode, instruction, operand (R147). -/
def oraForms (v b : Byte) (w : Word) : List Form :=
  [(0x01, .oraIndX b, .indirectX b), (0x05, .oraZp b, .zeroPage b), (0x09, .oraImm v, .immediate v),
   (0x0D, .oraAbs w, .absolute w), (0x11, .oraIndY b, .indirectY b), (0x15, .oraZpX b, .zeroPageX b),
   (0x19, .oraAbsY w, .absoluteY w), (0x1D, .oraAbsX w, .absoluteX w)]

/-- The forms of EOR: opcode, instruction, operand (R148). -/
def eorForms (v b : Byte) (w : Word) : List Form :=
  [(0x41, .eorIndX b, .indirectX b), (0x45, .eorZp b, .zeroPage b), (0x49, .eorImm v, .immediate v),
   (0x4D, .eorAbs w, .absolute w), (0x51, .eorIndY b, .indirectY b), (0x55, .eorZpX b, .zeroPageX b),
   (0x59, .eorAbsY w, .absoluteY w), (0x5D, .eorAbsX w, .absoluteX w)]

/-- The forms of BIT: opcode, instruction, operand (R149). -/
def bitForms (b : Byte) (w : Word) : List Form :=
  [(0x24, .bitZp b, .zeroPage b), (0x2C, .bitAbs w, .absolute w)]

/-- The forms of CMP: opcode, instruction, operand (R150). -/
def cmpForms (v b : Byte) (w : Word) : List Form :=
  [(0xC1, .cmpIndX b, .indirectX b), (0xC5, .cmpZp b, .zeroPage b), (0xC9, .cmpImm v, .immediate v),
   (0xCD, .cmpAbs w, .absolute w), (0xD1, .cmpIndY b, .indirectY b), (0xD5, .cmpZpX b, .zeroPageX b),
   (0xD9, .cmpAbsY w, .absoluteY w), (0xDD, .cmpAbsX w, .absoluteX w)]

/-- The forms of CPX: opcode, instruction, operand (R151). -/
def cpxForms (v b : Byte) (w : Word) : List Form :=
  [(0xE0, .cpxImm v, .immediate v), (0xE4, .cpxZp b, .zeroPage b), (0xEC, .cpxAbs w, .absolute w)]

/-- The forms of CPY: opcode, instruction, operand (R152). -/
def cpyForms (v b : Byte) (w : Word) : List Form :=
  [(0xC0, .cpyImm v, .immediate v), (0xC4, .cpyZp b, .zeroPage b), (0xCC, .cpyAbs w, .absolute w)]

/-- The forms of INC: opcode, instruction, operand (R153). -/
def incForms (b : Byte) (w : Word) : List Form :=
  [(0xE6, .incZp b, .zeroPage b), (0xEE, .incAbs w, .absolute w), (0xF6, .incZpX b, .zeroPageX b),
   (0xFE, .incAbsX w, .absoluteX w)]

/-- The forms of DEC: opcode, instruction, operand (R154). -/
def decForms (b : Byte) (w : Word) : List Form :=
  [(0xC6, .decZp b, .zeroPage b), (0xCE, .decAbs w, .absolute w), (0xD6, .decZpX b, .zeroPageX b),
   (0xDE, .decAbsX w, .absoluteX w)]

/-- The forms of ASL: opcode, instruction, operand (R159). -/
def aslForms (b : Byte) (w : Word) : List Form :=
  [(0x06, .aslZp b, .zeroPage b), (0x0A, .aslAcc, .accumulator), (0x0E, .aslAbs w, .absolute w),
   (0x16, .aslZpX b, .zeroPageX b), (0x1E, .aslAbsX w, .absoluteX w)]

/-- The forms of LSR: opcode, instruction, operand (R160). -/
def lsrForms (b : Byte) (w : Word) : List Form :=
  [(0x46, .lsrZp b, .zeroPage b), (0x4A, .lsrAcc, .accumulator), (0x4E, .lsrAbs w, .absolute w),
   (0x56, .lsrZpX b, .zeroPageX b), (0x5E, .lsrAbsX w, .absoluteX w)]

/-- The forms of ROL: opcode, instruction, operand (R161). -/
def rolForms (b : Byte) (w : Word) : List Form :=
  [(0x26, .rolZp b, .zeroPage b), (0x2A, .rolAcc, .accumulator), (0x2E, .rolAbs w, .absolute w),
   (0x36, .rolZpX b, .zeroPageX b), (0x3E, .rolAbsX w, .absoluteX w)]

/-- The forms of ROR: opcode, instruction, operand (R162). -/
def rorForms (b : Byte) (w : Word) : List Form :=
  [(0x66, .rorZp b, .zeroPage b), (0x6A, .rorAcc, .accumulator), (0x6E, .rorAbs w, .absolute w),
   (0x76, .rorZpX b, .zeroPageX b), (0x7E, .rorAbsX w, .absoluteX w)]

/-- The opcode byte of an instruction (30_encoding.md R81). -/
def HasOpcode (i : Instr) (op : Byte) : Prop := (encode i).head? = some op

/-- The flags with `Zero = value==0` and `Negative = high bit set` (40_cycle.md R117). -/
def nz (f : Flags) (v : Byte) : Flags := { f with z := decide (v.toNat = 0), n := decide (128 ≤ v.toNat) }

/-- The status byte, bit by bit: N V 1 B D I Z C (10_state.md R28). -/
def statusByte (f : Flags) : Byte :=
  BitVec.ofNat 8 (128 * bitNat f.n + 64 * bitNat f.v + 32 + 16 * bitNat f.b + 8 * bitNat f.d + 4 * bitNat f.i +
    2 * bitNat f.z + bitNat f.c)

/-- The flags a status byte unpacks to (10_state.md R29). -/
def flagsOfByte (v : Byte) : Flags :=
  { n := v.toNat.testBit 7, v := v.toNat.testBit 6, b := v.toNat.testBit 4, d := v.toNat.testBit 3
    i := v.toNat.testBit 2, z := v.toNat.testBit 1, c := v.toNat.testBit 0 }

/-- The little-endian word of two bytes, `hi * 256 + lo` (20_memory.md R64, R65). -/
def wordOfBytes (lo hi : Byte) : Word := BitVec.ofNat 16 (lo.toNat + 256 * hi.toNat)

/-- The address of the stack slot `k` below the one SP designates (10_state.md R17, 40_cycle.md R118). -/
def slotBelow (s : State) (k : Nat) : Word := BitVec.ofNat 16 (0x100 + (s.sp.toNat + 256 - k) % 256)

/-- The address of the stack slot `k` above the one SP designates (40_cycle.md R119). -/
def slotAbove (s : State) (k : Nat) : Word := BitVec.ofNat 16 (0x100 + (s.sp.toNat + k) % 256)

/-- RAM holds `v` at the address a location gives and every other byte as before. A read of that address sees `v` where
the mode maps it to RAM and the same overlay byte as before where not; every other read gives what it gave before, unless
the address is the port, whose low three bits become the mode's. A location that is no memory address is no store. -/
def StoresAt (s t : State) (l : Loc) (v : Byte) : Prop :=
  match l with
  | .mem ea => t.ramByte ea = v ∧ (∀ a, a ≠ ea → t.ramByte a = s.ramByte a) ∧
      (t.memRead ea = if t.servedBy ea = .ram then v else s.memRead ea) ∧
      (ea ≠ portAddr → ∀ a, a ≠ ea → t.memRead a = s.memRead a) ∧
      (ea = portAddr → t.mode.toNat = s.mode.toNat / 8 * 8 + v.toNat % 8)
  | .regA => False
  | .imm _ => False

/-- The stack bytes from the slot SP designated downward hold `l`, and every other byte of RAM is as before, as is every
read outside those slots. -/
def PushesOnly (s t : State) (l : List Byte) : Prop :=
  (∀ k v, l[k]? = some v → t.ramByte (slotBelow s k) = v) ∧
  ∀ a, (∀ k, k < l.length → a ≠ slotBelow s k) → t.ramByte a = s.ramByte a ∧ t.memRead a = s.memRead a

/-- The word at the zero-page pointer `p`; its high byte is read at `(p + 1) mod 256`, or at `p + 1` when `ZP_PTR_WRAP`
is false (30_encoding.md R95, R96). -/
def pointerWord (s : State) (p : Nat) : Word :=
  wordOfBytes (s.memRead (BitVec.ofNat 16 p))
    (s.memRead (BitVec.ofNat 16 (if s.cfg.zpPtrWrap then (p + 1) % 256 else p + 1)))

/-- The effective address of a memory operand, in numbers (30_encoding.md R88 to R93, R95, R96). -/
def effectiveAddress (s : State) : Operand → Option Word
  | .accumulator => none
  | .immediate _ => none
  | .zeroPage b => some (BitVec.ofNat 16 b.toNat)
  | .zeroPageX b => some (BitVec.ofNat 16 ((b.toNat + s.x.toNat) % 256))
  | .zeroPageY b => some (BitVec.ofNat 16 ((b.toNat + s.y.toNat) % 256))
  | .absolute w => some w
  | .absoluteX w => some (BitVec.ofNat 16 ((w.toNat + s.x.toNat) % 65536))
  | .absoluteY w => some (BitVec.ofNat 16 ((w.toNat + s.y.toNat) % 65536))
  | .indirectX b => some (pointerWord s ((b.toNat + s.x.toNat) % 256))
  | .indirectY b => some (BitVec.ofNat 16 (((pointerWord s b.toNat).toNat + s.y.toNat) % 65536))

/-- The binary value of a packed BCD byte, `10 * b[7:4] + b[3:0]` (43_arith_logic.md R141). -/
def bcdValue (b : Byte) : Nat := 10 * (b.toNat / 16) + b.toNat % 16

/-- The number whose byte holds the low two decimal digits of `n` (43_arith_logic.md R142). -/
def bcdDigits (n : Nat) : Nat := 16 * (n / 10 % 10) + n % 10

/-- Outside the range of a signed byte. -/
def OutOfRange (t : Int) : Prop := t < -128 ∨ 127 < t

/-- V after ADC or SBC whose exact signed result is `t`: set exactly when out of range, but left alone in decimal mode
under the rule `Unchanged` (43_arith_logic.md R144, R145, D22). -/
def OverflowRule (rule : DecimalVRule) (f g : Flags) (t : Int) : Prop :=
  if f.d = true ∧ rule = .unchanged then g.v = f.v else (g.v = true ↔ OutOfRange t)

/-- The result `r` and the flags `g` of ADC (43_arith_logic.md R144). -/
def AddsWithCarry (rule : DecimalVRule) (f : Flags) (a m r : Byte) (g : Flags) : Prop :=
  g = { nz f r with c := g.c, v := g.v } ∧
  OverflowRule rule f g (a.toInt + m.toInt + bitNat f.c) ∧
  (f.d = false → r.toNat = (a.toNat + m.toNat + bitNat f.c) % 256 ∧
    (g.c = true ↔ 255 < a.toNat + m.toNat + bitNat f.c)) ∧
  (f.d = true → r.toNat = bcdDigits (bcdValue a + bcdValue m + bitNat f.c) ∧
    (g.c = true ↔ 99 < bcdValue a + bcdValue m + bitNat f.c))

/-- The result `r` and the flags `g` of SBC; the borrow in is `1 - C` (43_arith_logic.md R145). -/
def SubtractsWithBorrow (rule : DecimalVRule) (f : Flags) (a m r : Byte) (g : Flags) : Prop :=
  g = { nz f r with c := g.c, v := g.v } ∧
  OverflowRule rule f g (a.toInt - m.toInt - (1 - bitNat f.c : Nat)) ∧
  (f.d = false → r.toNat = (a.toNat + 256 - m.toNat - (1 - bitNat f.c)) % 256 ∧
    (g.c = true ↔ m.toNat + (1 - bitNat f.c) ≤ a.toNat)) ∧
  (f.d = true → r.toNat = bcdDigits (((bcdValue a : Int) - bcdValue m - (1 - bitNat f.c : Nat)) % 100).toNat ∧
    (g.c = true ↔ bcdValue m + (1 - bitNat f.c) ≤ bcdValue a))

/-- The flags of a compare of a register value `r` with `m` (43_arith_logic.md R143). -/
def comparedFlags (f : Flags) (r m : Byte) : Flags :=
  { f with c := decide (m.toNat ≤ r.toNat), z := decide (r.toNat = m.toNat)
           n := decide (128 ≤ (r.toNat + 256 - m.toNat) % 256) }

/-- A shift or rotate form: it writes `r` and sets C to `c`, N and Z from `r`; the Accumulator form writes A, a memory
form stores to its address and writes no register (44_shift_rotate.md). -/
def Shifts (s : State) (p : Form) (r : Byte) (c : Bool) : Prop :=
  HasOpcode p.2.1 p.1 ∧
  match s.resolve p.2.2 with
  | .regA => exec p.2.1 s = .next { s with a := r, flags := nz { s.flags with c := c } r }
  | .mem ea => ∃ t, exec p.2.1 s = .next t ∧
      t = { s with ram := t.ram, flags := nz { s.flags with c := c } r } ∧ StoresAt s t (.mem ea) r
  | .imm _ => False

/-- The operand an instruction stores its result to, if it has one (R128 to R130, R153, R154, R159 to R162). -/
def storeOperand : Instr → Option Operand
  | .staIndX b => some (.indirectX b)
  | .staZp b => some (.zeroPage b)
  | .staAbs w => some (.absolute w)
  | .staIndY b => some (.indirectY b)
  | .staZpX b => some (.zeroPageX b)
  | .staAbsY w => some (.absoluteY w)
  | .staAbsX w => some (.absoluteX w)
  | .stxZp b => some (.zeroPage b)
  | .stxAbs w => some (.absolute w)
  | .stxZpY b => some (.zeroPageY b)
  | .styZp b => some (.zeroPage b)
  | .styAbs w => some (.absolute w)
  | .styZpX b => some (.zeroPageX b)
  | .incZp b => some (.zeroPage b)
  | .incAbs w => some (.absolute w)
  | .incZpX b => some (.zeroPageX b)
  | .incAbsX w => some (.absoluteX w)
  | .decZp b => some (.zeroPage b)
  | .decAbs w => some (.absolute w)
  | .decZpX b => some (.zeroPageX b)
  | .decAbsX w => some (.absoluteX w)
  | .aslZp b => some (.zeroPage b)
  | .aslAcc => some .accumulator
  | .aslAbs w => some (.absolute w)
  | .aslZpX b => some (.zeroPageX b)
  | .aslAbsX w => some (.absoluteX w)
  | .lsrZp b => some (.zeroPage b)
  | .lsrAcc => some .accumulator
  | .lsrAbs w => some (.absolute w)
  | .lsrZpX b => some (.zeroPageX b)
  | .lsrAbsX w => some (.absoluteX w)
  | .rolZp b => some (.zeroPage b)
  | .rolAcc => some .accumulator
  | .rolAbs w => some (.absolute w)
  | .rolZpX b => some (.zeroPageX b)
  | .rolAbsX w => some (.absoluteX w)
  | .rorZp b => some (.zeroPage b)
  | .rorAcc => some .accumulator
  | .rorAbs w => some (.absolute w)
  | .rorZpX b => some (.zeroPageX b)
  | .rorAbsX w => some (.absoluteX w)
  | _ => none

/-- The addresses an instruction stores to: its store operand's, as the model resolves it, and the stack slots it
pushes to (40_cycle.md R118, R120; BRK pushes only off stop-on-break, R182). -/
def storeAddresses (i : Instr) (s : State) : List Word :=
  (match storeOperand i with
   | some o => match s.resolve o with
     | .mem ea => [ea]
     | .regA => []
     | .imm _ => []
   | none => []) ++
  (match i with
   | .pha => [stackAddr s.sp]
   | .php => [stackAddr s.sp]
   | .jsrAbs _ => [stackAddr s.sp, stackAddr (s.sp - 1)]
   | .brk _ => if s.stopOnBreak then [] else [stackAddr s.sp, stackAddr (s.sp - 1), stackAddr (s.sp - 2)]
   | _ => [])

/-- The instructions that write A (10_state.md R14). -/
def writesA (i : Instr) : Bool :=
  [.lda, .txa, .tya, .pla, .adc, .sbc, .and, .ora, .eor].contains i.mnemonic ||
  ([.asl, .lsr, .rol, .ror].contains i.mnemonic && i.mode == .accumulator)

/-- The instructions that write X (10_state.md R15). -/
def writesX (i : Instr) : Bool := [Mnemonic.ldx, .tax, .tsx, .inx, .dex].contains i.mnemonic

/-- The instructions that write Y (10_state.md R16). -/
def writesY (i : Instr) : Bool := [Mnemonic.ldy, .tay, .iny, .dey].contains i.mnemonic

/-- The instructions that write SP: TXS and every push and pull (10_state.md R17). -/
def writesSp (i : Instr) : Bool :=
  [Mnemonic.txs, .pha, .php, .pla, .plp, .jsr, .rts, .brk, .rti].contains i.mnemonic

/-- The instructions that transfer control or fetch a byte of their own (10_state.md R19, 46_flags_system.md R182). -/
def movesPc (i : Instr) : Bool :=
  [Mnemonic.jmp, .jsr, .rts, .rti, .brk, .bcc, .bcs, .beq, .bmi, .bne, .bpl, .bvc, .bvs].contains i.mnemonic

/-- The instructions that write C (10_state.md R21). -/
def writesC (i : Instr) : Bool :=
  [Mnemonic.adc, .sbc, .cmp, .cpx, .cpy, .asl, .lsr, .rol, .ror, .clc, .sec, .plp, .rti].contains i.mnemonic

/-- The instructions that write Z and N (10_state.md R22, R27). -/
def writesNZ (i : Instr) : Bool :=
  [Mnemonic.lda, .ldx, .ldy, .tax, .tay, .txa, .tya, .tsx, .pla, .adc, .sbc, .and, .ora, .eor, .bit, .cmp, .cpx, .cpy,
   .inc, .dec, .inx, .iny, .dex, .dey, .asl, .lsr, .rol, .ror, .plp, .rti].contains i.mnemonic

/-- The instructions that write I (10_state.md R23). -/
def writesI (i : Instr) : Bool := [Mnemonic.cli, .sei, .brk, .plp, .rti].contains i.mnemonic

/-- The instructions that write D (10_state.md R24). -/
def writesD (i : Instr) : Bool := [Mnemonic.cld, .sed, .plp, .rti].contains i.mnemonic

/-- The instructions that write B (10_state.md R25). -/
def writesB (i : Instr) : Bool := [Mnemonic.brk, .plp, .rti].contains i.mnemonic

/-- The instructions that write V (10_state.md R26). -/
def writesV (i : Instr) : Bool := [Mnemonic.adc, .sbc, .bit, .clv, .plp, .rti].contains i.mnemonic

/-- The 105 unpopulated opcode bytes, as 30_encoding.md R101 lists them. -/
def illegalBytes : List Byte :=
  [0x02, 0x03, 0x04, 0x07, 0x0B, 0x0C, 0x0F, 0x12, 0x13, 0x14, 0x17, 0x1A, 0x1B, 0x1C, 0x1F, 0x22, 0x23, 0x27,
   0x2B, 0x2F, 0x32, 0x33, 0x34, 0x37, 0x3A, 0x3B, 0x3C, 0x3F, 0x42, 0x43, 0x44, 0x47, 0x4B, 0x4F, 0x52, 0x53,
   0x54, 0x57, 0x5A, 0x5B, 0x5C, 0x5F, 0x62, 0x63, 0x64, 0x67, 0x6B, 0x6F, 0x72, 0x73, 0x74, 0x77, 0x7A, 0x7B,
   0x7C, 0x7F, 0x80, 0x82, 0x83, 0x87, 0x89, 0x8B, 0x8F, 0x92, 0x93, 0x97, 0x9B, 0x9C, 0x9E, 0x9F, 0xA3, 0xA7,
   0xAB, 0xAF, 0xB2, 0xB3, 0xB7, 0xBB, 0xBF, 0xC2, 0xC3, 0xC7, 0xCB, 0xCF, 0xD2, 0xD3, 0xD4, 0xD7, 0xDA, 0xDB,
   0xDC, 0xDF, 0xE2, 0xE3, 0xE7, 0xEB, 0xEF, 0xF2, 0xF3, 0xF4, 0xF7, 0xFA, 0xFB, 0xFC, 0xFF]

/-- The chunk that serves reads of `addr`, by the decode equations of 20_memory.md R55. -/
def servedByEquations (exrom game ch hi lo : Bool) (addr : Nat) : ChunkKind :=
  if addr < 0x1000 then .ram
  else if exrom = true ∧ game = false then
    if addr < 0x8000 then .openBus else if addr < 0xA000 then .cartLo else if addr < 0xD000 then .openBus
    else if addr < 0xE000 then .io else .cartHi
  else if addr < 0x8000 then .ram
  else if addr < 0xA000 then if exrom = false ∧ lo = true ∧ hi = true then .cartLo else .ram
  else if addr < 0xC000 then
    if game = false then (if hi = true then .cartHi else .ram) else if lo = true ∧ hi = true then .basic else .ram
  else if addr < 0xD000 then .ram
  else if addr < 0xE000 then
    if (lo = true ∨ hi = true) ∧ ch = true then .io
    else if game = false then (if hi = true ∧ ch = false then .char else .ram)
    else if (lo = true ∨ hi = true) ∧ ch = false then .char else .ram
  else if hi = true then .kernal else .ram

/-- The base address of the zone of `addr` (20_memory.md R51). -/
def zoneBase (addr : Nat) : Nat :=
  if addr < 0x1000 then 0 else if addr < 0x8000 then 0x1000 else if addr < 0xA000 then 0x8000
  else if addr < 0xC000 then 0xA000 else if addr < 0xD000 then 0xC000 else if addr < 0xE000 then 0xD000 else 0xE000

/-- A request is pending and neither mask holds it back (60_exceptions.md R190, R191). -/
def DeliveryDue (s : State) : Prop :=
  0 < s.pending ∧ s.flags.i = false ∧ (s.cfg.irqGatedByInService = true → s.inService = false)

end Sys2Proof.Claims

open Sys2Proof Sys2Proof.Machine Sys2Proof.Claims

/-! Encoding. -/

/-- Decoding the encoding of a well-formed instruction gives it back with the bytes after it, every operand at every
value its encoding admits (30_encoding.md sections 1 to 3). -/
def Obligations.DecodeOfEncodeIsTheInstruction : Prop :=
  ∀ (i : Instr) (rest : List Byte), i.wellFormed = true → decode (encode i ++ rest) = .ok (i, rest)

/-- Bytes that decode to an instruction are its encoding, and the instruction is well-formed: no bit of the instruction's
bytes is dropped (30_encoding.md sections 1 to 3). -/
def Obligations.EncodeOfDecodeIsTheBytes : Prop :=
  ∀ (bytes : List Byte) (i : Instr) (rest : List Byte), decode bytes = .ok (i, rest) →
    i.wellFormed = true ∧ encode i ++ rest = bytes

/-- Decoding is total: an opcode byte with two bytes after it is either one of R101's 105 illegal bytes, and is refused
by name, or decodes to an instruction with that opcode, and then to exactly one (30_encoding.md R109). -/
def Obligations.EveryByteIsAnInstructionOrIllegal : Prop :=
  ∀ (op b1 b2 : Byte) (rest : List Byte),
    (illegalBytes.contains op = true → decode (op :: b1 :: b2 :: rest) = .error (.illegalOpcode op)) ∧
    (illegalBytes.contains op = false →
      ∃ i r, decode (op :: b1 :: b2 :: rest) = .ok (i, r) ∧ HasOpcode i op)

/-- Words written out bit by bit from the encodings of spec/opcode_table.json decode to their instructions. -/
def Obligations.WrittenOutWordsDecode : Prop :=
  decode [0b10101001, 0x12] = .ok (.ldaImm 0x12, []) ∧ decode [0b10001101, 0x00, 0xA0] = .ok (.staAbs 0xA000, []) ∧
  decode [0b10101010] = .ok (.tax, []) ∧ decode [0b01101001, 0x50] = .ok (.adcImm 0x50, []) ∧
  decode [0b01101110, 0x34, 0x12] = .ok (.rorAbs 0x1234, []) ∧ decode [0b01101100, 0xFF, 0x02] = .ok (.jmpInd 0x02FF, []) ∧
  decode [0b11010000, 0xFB] = .ok (.bne (-5), []) ∧ decode [0b00000000, 0x7F] = .ok (.brk 0x7F, []) ∧
  decode [0b01000000] = .ok (.rti, [])

/-- The length of an encoding follows from the mode alone: the bytes of R104's table, one of them the opcode and the rest
the operand bytes the resolver consumes, and one padding byte more for BRK. -/
def Obligations.LengthFollowsTheMode : Prop :=
  ∀ i : Instr, ∃ n, n = (match i.mode with
     | .accumulator | .implied => 1
     | .immediate | .zeroPage | .zeroPageX | .zeroPageY | .indirectX | .indirectY | .relative => 2
     | .absolute | .absoluteX | .absoluteY | .indirect => 3) ∧
    i.mode.operandBytes + 1 = n ∧ (encode i).length = n + (if i.mnemonic = .brk then 1 else 0)

/-! The memory-mapping unit. -/

/-- The mode is `EXROM<<4 | GAME<<3 | (RAM[PORT_ADDR] AND 7)`, computed from the port's RAM byte, which equals what a
read of the port gives, and the lines (R34). -/
def Obligations.ModeIsComputedFromPortAndLines : Prop :=
  ∀ s : State, s.mode.toNat = 16 * bitNat s.exrom + 8 * bitNat s.game + (s.ramByte 0x0001).toNat % 8 ∧
    s.memRead 0x0001 = s.ramByte 0x0001

/-- The chunk that serves a read, by the mode table, is the one the decode equations of R55 give, for the lines and the
port's bits LORAM, HIRAM and CHAREN. The spec marks table and equations as its own, "from general knowledge" (D6). -/
def Obligations.ModeTableAgreesWithTheDecodeEquations : Prop :=
  ∀ (s : State) (addr : Word), s.servedBy addr =
    servedByEquations s.exrom s.game ((s.ramByte 0x0001).toNat.testBit 2) ((s.ramByte 0x0001).toNat.testBit 1)
      ((s.ramByte 0x0001).toNat.testBit 0) addr.toNat

/-- A read delegates to the chunk assigned to the zone, at the address less the zone's base, which lies inside the chunk;
the Open chunk gives the open-bus value (R54, R56). -/
def Obligations.ReadsAreRoutedToTheServingChunk : Prop :=
  ∀ (s : State) (addr : Word),
    (s.servedBy addr ≠ .openBus → s.servedBy addr ≠ .ram → addr.toNat - zoneBase addr.toNat < (s.servedBy addr).size) ∧
    s.memRead addr =
      (match s.servedBy addr with
       | .ram => Memory.read .ram s.ram addr.toNat
       | .basic => Memory.read .basic s.basic (addr.toNat - zoneBase addr.toNat)
       | .kernal => Memory.read .kernal s.kernal (addr.toNat - zoneBase addr.toNat)
       | .char => Memory.read .char s.char (addr.toNat - zoneBase addr.toNat)
       | .cartLo => Memory.read .cartLo s.cartLo (addr.toNat - zoneBase addr.toNat)
       | .cartHi => Memory.read .cartHi s.cartHi (addr.toNat - zoneBase addr.toNat)
       | .io => Memory.read .io s.io (addr.toNat - zoneBase addr.toNat)
       | .openBus => s.cfg.openBusValue)

/-- A write changes the RAM byte at its address and nothing else, whatever the mode (R57). -/
def Obligations.WritesReachRamOnly : Prop :=
  ∀ (s : State) (addr : Word) (v : Byte),
    s.memWrite addr v = { s with ram := (s.memWrite addr v).ram } ∧
    ∀ a, (s.memWrite addr v).ramByte a = if a = addr then v else s.ramByte a

/-- The write-through invariant of R215: a byte written under any overlay is read back after switching to an all-RAM
mode by a write to the port and a change of the lines. R55 marks its list of the all-RAM modes as derived from the table.
The port itself is left out as the byte written: the switch writes it. -/
def Obligations.WrittenByteIsReadInTheAllRamMode : Prop :=
  ∀ (s : State) (addr : Word) (v port : Byte) (game exrom : Bool), addr ≠ portAddr →
    ∀ t, t = ((s.memWrite addr v).memWrite portAddr port).setCartLines game exrom →
    t.mode.toNat ∈ [0, 1, 4, 8, 12, 24, 28] → t.memRead addr = v

/-- Every address from `$0000` to `$0FFF`, so the whole stack page, reads RAM in every mode. R69 marks it as derived from
"zone 0, which is RAM in every mode". -/
def Obligations.LowMemoryReadsRamInEveryMode : Prop :=
  ∀ (s : State) (addr : Word), addr.toNat ≤ 0x0FFF → s.memRead addr = s.ramByte addr

/-- An open-bus read returns the sentinel value, and a write to the same address goes to RAM and does not change the
read (R61). -/
def Obligations.OpenBusReadsTheSentinel : Prop :=
  ∀ (s : State) (addr : Word) (v : Byte), s.servedBy addr = .openBus →
    s.memRead addr = s.cfg.openBusValue ∧ (s.memWrite addr v).memRead addr = s.cfg.openBusValue ∧
    (s.memWrite addr v).ramByte addr = v

/-- `$A000 + k` in modes 2, 3, 6, 7 and `$E000 + k` in modes 16 to 23 read the same cartridge byte. R59 marks it as
derived. -/
def Obligations.CartridgeHighServesTwoZones : Prop :=
  ∀ (s t : State) (k : Nat), k < 0x2000 → t.cartHi = s.cartHi → s.mode.toNat ∈ [2, 3, 6, 7] →
    16 ≤ t.mode.toNat → t.mode.toNat ≤ 23 →
    s.memRead (BitVec.ofNat 16 (0xA000 + k)) = t.memRead (BitVec.ofNat 16 (0xE000 + k))

/-- A write to the port gives the mode its low three bits at once and a change of the lines its high two; neither changes
any chunk's other contents (R62, R63). -/
def Obligations.ModeChangesTakeEffectAtOnce : Prop :=
  ∀ (s : State) (v : Byte) (game exrom : Bool),
    (s.memWrite 0x0001 v).mode.toNat = s.mode.toNat / 8 * 8 + v.toNat % 8 ∧
    (s.setCartLines game exrom).mode.toNat = 16 * bitNat exrom + 8 * bitNat game + s.mode.toNat % 8 ∧
    (s.memWrite 0x0001 v).setCartLines game exrom =
      { s with ram := (s.memWrite 0x0001 v).ram, game := game, exrom := exrom } ∧
    ∀ a, a ≠ 0x0001 → (s.memWrite 0x0001 v).ramByte a = s.ramByte a

/-- A store is seen by the next read or fetch of its address exactly when the mode then maps the address to RAM; where
another chunk serves it, the read still gives that chunk's byte. R77 and R216 mark it as derived. -/
def Obligations.StoreIsSeenWhereRamServesTheAddress : Prop :=
  ∀ (s : State) (addr : Word) (v : Byte),
    ((s.memWrite addr v).servedBy addr = .ram → (s.memWrite addr v).memRead addr = v) ∧
    ((s.memWrite addr v).servedBy addr ≠ .ram → (s.memWrite addr v).memRead addr = s.memRead addr)

/-- Two chunks in canonical form that read alike at every address are the same list: equal memories are equal data (the
model's choice, log entry 11). -/
def Obligations.CanonicalMemoriesThatReadAlikeAreEqual : Prop :=
  ∀ (k : ChunkKind) (m n : Memory), Memory.wf k m = true → Memory.wf k n = true →
    (∀ a, Memory.read k m a = Memory.read k n a) → m = n

/-! Shared operations. -/

/-- What is pushed is pulled, and SP comes back, for every SP (R119 and R121 mark both identities as derived). -/
def Obligations.PullReturnsWhatPushWrote : Prop :=
  ∀ (s : State) (v : Byte) (w : Word),
    (s.push v).pull = (v, { s with ram := (s.push v).ram }) ∧
    (s.push16 w).pull16 = (w, { s with ram := (s.push16 w).ram })

/-- The status byte packs the flags as N V 1 B D I Z C, unpacks to the same bits, and the identical flag set comes back
(R28, R29, R30). The spec marks the layout as its own, "from general knowledge" (D9), except that bit 5 reads 1. -/
def Obligations.StatusBytePacksTheFlags : Prop :=
  (∀ f : Flags, f.sr = statusByte f ∧ Flags.ofSr f.sr = f ∧ f.sr.toNat.testBit 5 = true) ∧
  ∀ v : Byte, Flags.ofSr v = flagsOfByte v

/-- BCD conversion: ten times the high nibble plus the low one, for every byte; the low two decimal digits of any number
(R141, R142). -/
def Obligations.BcdConversionsFollowTheirFormulas : Prop :=
  (∀ b : Byte, fromBCD b = bcdValue b) ∧ ∀ n : Nat, (toBCD n).toNat = bcdDigits n ∧ toBCD n = toBCD (n % 100)

/-- The conversions round-trip: a number below 100 through BCD, and a status byte unpacked and packed again, which is the
byte with bit 5 set. R142 and R30 mark both as derived. -/
def Obligations.ConversionsRoundTrip : Prop :=
  (∀ n : Nat, n ≤ 99 → fromBCD (toBCD n) = n) ∧ ∀ v : Byte, (Flags.ofSr v).sr = v ||| 0x20

/-- The resolver over the operand bytes: each mode's effective address in numbers, the value read there, and where a value
is stored back, memory or A (R85, R86, R88 to R93, R95, R96, R122). That a write to an immediate location leaves the state
as it was is the model's choice (DESIGN CHOICE, log entry 8): R122 says only that such a write is never used. -/
def Obligations.OperandsResolveToTheirAddresses : Prop :=
  ∀ (s : State) (o : Operand),
    (∀ ea, s.resolve o = .mem ea ↔ effectiveAddress s o = some ea) ∧
    s.operand o = (match effectiveAddress s o, o with
      | some ea, _ => s.memRead ea
      | none, .immediate v => v
      | none, _ => s.a) ∧
    ∀ v, s.writeLoc (s.resolve o) v = (match effectiveAddress s o, o with
      | some ea, _ => s.memWrite ea v
      | none, .immediate _ => s
      | none, _ => { s with a := v })

/-! Instructions. Each statement's conclusion is the next state of the instruction's own effect. -/

/-- LDA, LDX and LDY in every form: the operand goes to the register, N and Z follow it, nothing else changes. -/
def Obligations.LoadsPutTheOperandInTheRegister : Prop :=
  ∀ (s : State) (v b : Byte) (w : Word),
    (∀ p ∈ ldaForms v b w, HasOpcode p.2.1 p.1 ∧
      exec p.2.1 s = .next { s with a := s.operand p.2.2, flags := nz s.flags (s.operand p.2.2) }) ∧
    (∀ p ∈ ldxForms v b w, HasOpcode p.2.1 p.1 ∧
      exec p.2.1 s = .next { s with x := s.operand p.2.2, flags := nz s.flags (s.operand p.2.2) }) ∧
    (∀ p ∈ ldyForms v b w, HasOpcode p.2.1 p.1 ∧
      exec p.2.1 s = .next { s with y := s.operand p.2.2, flags := nz s.flags (s.operand p.2.2) })

/-- STA, STX and STY in every form: the register goes to RAM at the operand's address; nothing else changes. -/
def Obligations.StoresPutTheRegisterInRam : Prop :=
  ∀ (s : State) (b : Byte) (w : Word),
    (∀ p ∈ staForms b w, HasOpcode p.2.1 p.1 ∧
      ∃ t, exec p.2.1 s = .next t ∧ t = { s with ram := t.ram } ∧ StoresAt s t (s.resolve p.2.2) s.a) ∧
    (∀ p ∈ stxForms b w, HasOpcode p.2.1 p.1 ∧
      ∃ t, exec p.2.1 s = .next t ∧ t = { s with ram := t.ram } ∧ StoresAt s t (s.resolve p.2.2) s.x) ∧
    (∀ p ∈ styForms b w, HasOpcode p.2.1 p.1 ∧
      ∃ t, exec p.2.1 s = .next t ∧ t = { s with ram := t.ram } ∧ StoresAt s t (s.resolve p.2.2) s.y)

/-- The six transfers: the register is copied, N and Z follow it except for TXS, which writes no flag. -/
def Obligations.TransfersCopyTheRegister : Prop :=
  ∀ s : State,
    (HasOpcode .tax 0xAA ∧ exec .tax s = .next { s with x := s.a, flags := nz s.flags s.a }) ∧
    (HasOpcode .tay 0xA8 ∧ exec .tay s = .next { s with y := s.a, flags := nz s.flags s.a }) ∧
    (HasOpcode .txa 0x8A ∧ exec .txa s = .next { s with a := s.x, flags := nz s.flags s.x }) ∧
    (HasOpcode .tya 0x98 ∧ exec .tya s = .next { s with a := s.y, flags := nz s.flags s.y }) ∧
    (HasOpcode .tsx 0xBA ∧ exec .tsx s = .next { s with x := s.sp, flags := nz s.flags s.sp }) ∧
    (HasOpcode .txs 0x9A ∧ exec .txs s = .next { s with sp := s.x })

/-- PHA and PHP: A, or the status byte with bit 5 set and bit 4 the stored B, is written at the slot SP designates, then
SP goes down by one modulo 256; no flag and no other register changes. -/
def Obligations.PushesWriteTheStack : Prop :=
  ∀ s : State,
    (HasOpcode .pha 0x48 ∧ ∃ t, exec .pha s = .next t ∧ PushesOnly s t [s.a] ∧
      t = { s with ram := t.ram, sp := BitVec.ofNat 8 (s.sp.toNat + 255) }) ∧
    (HasOpcode .php 0x08 ∧ ∃ t, exec .php s = .next t ∧ PushesOnly s t [statusByte s.flags] ∧
      t = { s with ram := t.ram, sp := BitVec.ofNat 8 (s.sp.toNat + 255) })

/-- PLA and PLP: the RAM byte above SP is pulled into A with N and Z, or into all seven flags; SP goes up by one modulo
256. -/
def Obligations.PullsReadTheStack : Prop :=
  ∀ s : State,
    (HasOpcode .pla 0x68 ∧
      exec .pla s = .next { s with a := s.ramByte (slotAbove s 1), sp := BitVec.ofNat 8 (s.sp.toNat + 1)
                                   flags := nz s.flags (s.ramByte (slotAbove s 1)) }) ∧
    (HasOpcode .plp 0x28 ∧
      exec .plp s = .next { s with sp := BitVec.ofNat 8 (s.sp.toNat + 1)
                                   flags := flagsOfByte (s.ramByte (slotAbove s 1)) })

/-- ADC in every form, binary and decimal: A, N, Z, C and V by the rule's sums; nothing else changes. -/
def Obligations.AdcAddsWithCarry : Prop :=
  ∀ (s : State) (v b : Byte) (w : Word), ∀ p ∈ adcForms v b w, HasOpcode p.2.1 p.1 ∧
    ∃ t, exec p.2.1 s = .next t ∧ t = { s with a := t.a, flags := t.flags } ∧
      AddsWithCarry s.cfg.decimalVRule s.flags s.a (s.operand p.2.2) t.a t.flags

/-- SBC in every form, binary and decimal: A, N, Z, C and V by the rule's differences; nothing else changes. -/
def Obligations.SbcSubtractsWithBorrow : Prop :=
  ∀ (s : State) (v b : Byte) (w : Word), ∀ p ∈ sbcForms v b w, HasOpcode p.2.1 p.1 ∧
    ∃ t, exec p.2.1 s = .next t ∧ t = { s with a := t.a, flags := t.flags } ∧
      SubtractsWithBorrow s.cfg.decimalVRule s.flags s.a (s.operand p.2.2) t.a t.flags

/-- AND, ORA and EOR in every form: each bit of A, N and Z from the byte written; nothing else changes. -/
def Obligations.LogicalOperationsActOnEachBit : Prop :=
  ∀ (s : State) (v b : Byte) (w : Word),
    (∀ p ∈ andForms v b w, HasOpcode p.2.1 p.1 ∧ ∃ t, exec p.2.1 s = .next t ∧
      t = { s with a := t.a, flags := nz s.flags t.a } ∧
      ∀ k, t.a.toNat.testBit k = (s.a.toNat.testBit k && (s.operand p.2.2).toNat.testBit k)) ∧
    (∀ p ∈ oraForms v b w, HasOpcode p.2.1 p.1 ∧ ∃ t, exec p.2.1 s = .next t ∧
      t = { s with a := t.a, flags := nz s.flags t.a } ∧
      ∀ k, t.a.toNat.testBit k = (s.a.toNat.testBit k || (s.operand p.2.2).toNat.testBit k)) ∧
    (∀ p ∈ eorForms v b w, HasOpcode p.2.1 p.1 ∧ ∃ t, exec p.2.1 s = .next t ∧
      t = { s with a := t.a, flags := nz s.flags t.a } ∧
      ∀ k, t.a.toNat.testBit k = (s.a.toNat.testBit k ^^ (s.operand p.2.2).toNat.testBit k))

/-- BIT in both forms: Z from the AND, N and V copied from bits 7 and 6 of the operand; A and everything else stay. -/
def Obligations.BitCopiesTheOperandsHighBits : Prop :=
  ∀ (s : State) (b : Byte) (w : Word), ∀ p ∈ bitForms b w, HasOpcode p.2.1 p.1 ∧
    exec p.2.1 s = .next { s with flags := { s.flags with
      z := decide (s.a.toNat &&& (s.operand p.2.2).toNat = 0)
      n := decide (128 ≤ (s.operand p.2.2).toNat), v := decide (64 ≤ (s.operand p.2.2).toNat % 128) } }

/-- CMP, CPX and CPY in every form: C, Z and N of the subtraction with no carry in; no register and no other flag
changes. -/
def Obligations.ComparesWriteOnlyFlags : Prop :=
  ∀ (s : State) (v b : Byte) (w : Word),
    (∀ p ∈ cmpForms v b w, HasOpcode p.2.1 p.1 ∧
      exec p.2.1 s = .next { s with flags := comparedFlags s.flags s.a (s.operand p.2.2) }) ∧
    (∀ p ∈ cpxForms v b w, HasOpcode p.2.1 p.1 ∧
      exec p.2.1 s = .next { s with flags := comparedFlags s.flags s.x (s.operand p.2.2) }) ∧
    (∀ p ∈ cpyForms v b w, HasOpcode p.2.1 p.1 ∧
      exec p.2.1 s = .next { s with flags := comparedFlags s.flags s.y (s.operand p.2.2) })

/-- INC and DEC in every form: the byte read through the mode, plus or minus one modulo 256, is stored to RAM at the same
address; N and Z follow it; nothing else changes. -/
def Obligations.MemoryIsIncrementedAndDecremented : Prop :=
  ∀ (s : State) (b : Byte) (w : Word),
    (∀ p ∈ incForms b w, HasOpcode p.2.1 p.1 ∧ ∃ t r, exec p.2.1 s = .next t ∧
      r = BitVec.ofNat 8 ((s.operand p.2.2).toNat + 1) ∧
      t = { s with ram := t.ram, flags := nz s.flags r } ∧ StoresAt s t (s.resolve p.2.2) r) ∧
    (∀ p ∈ decForms b w, HasOpcode p.2.1 p.1 ∧ ∃ t r, exec p.2.1 s = .next t ∧
      r = BitVec.ofNat 8 ((s.operand p.2.2).toNat + 255) ∧
      t = { s with ram := t.ram, flags := nz s.flags r } ∧ StoresAt s t (s.resolve p.2.2) r)

/-- INX, INY, DEX and DEY: plus or minus one modulo 256, N and Z from the result; nothing else changes. -/
def Obligations.IndexRegistersCountModulo256 : Prop :=
  ∀ s : State,
    (HasOpcode .inx 0xE8 ∧ ∃ t, exec .inx s = .next t ∧ t = { s with x := t.x, flags := nz s.flags t.x } ∧
      t.x.toNat = (s.x.toNat + 1) % 256) ∧
    (HasOpcode .iny 0xC8 ∧ ∃ t, exec .iny s = .next t ∧ t = { s with y := t.y, flags := nz s.flags t.y } ∧
      t.y.toNat = (s.y.toNat + 1) % 256) ∧
    (HasOpcode .dex 0xCA ∧ ∃ t, exec .dex s = .next t ∧ t = { s with x := t.x, flags := nz s.flags t.x } ∧
      t.x.toNat = (s.x.toNat + 255) % 256) ∧
    (HasOpcode .dey 0x88 ∧ ∃ t, exec .dey s = .next t ∧ t = { s with y := t.y, flags := nz s.flags t.y } ∧
      t.y.toNat = (s.y.toNat + 255) % 256)

/-- ASL and LSR in every form: twice the byte modulo 256 with the old bit 7 in C, or half of it with the old bit 0 in C. -/
def Obligations.ShiftsMoveOneBitIntoCarry : Prop :=
  ∀ (s : State) (b : Byte) (w : Word),
    (∀ p ∈ aslForms b w, Shifts s p (BitVec.ofNat 8 (2 * (s.operand p.2.2).toNat))
      (decide (128 ≤ (s.operand p.2.2).toNat))) ∧
    (∀ p ∈ lsrForms b w, Shifts s p (BitVec.ofNat 8 ((s.operand p.2.2).toNat / 2))
      (decide ((s.operand p.2.2).toNat % 2 = 1)))

/-- ROL and ROR in every form: as the shifts, with the old C entering at the other end. -/
def Obligations.RotatesFeedTheOldCarry : Prop :=
  ∀ (s : State) (b : Byte) (w : Word),
    (∀ p ∈ rolForms b w, Shifts s p (BitVec.ofNat 8 (2 * (s.operand p.2.2).toNat + bitNat s.flags.c))
      (decide (128 ≤ (s.operand p.2.2).toNat))) ∧
    (∀ p ∈ rorForms b w, Shifts s p (BitVec.ofNat 8 ((s.operand p.2.2).toNat / 2 + 128 * bitNat s.flags.c))
      (decide ((s.operand p.2.2).toNat % 2 = 1)))

/-- JMP: PC is one less than the address, or than the little-endian word at the pointer, whose high byte is read in the
pointer's own page when `JMP_IND_PAGE_BUG`; nothing else changes. -/
def Obligations.JumpsGoToTheTarget : Prop :=
  ∀ (s : State) (w : Word),
    (HasOpcode (.jmpAbs w) 0x4C ∧
      exec (.jmpAbs w) s = .next { s with pc := BitVec.ofNat 16 (w.toNat + 65535) }) ∧
    (HasOpcode (.jmpInd w) 0x6C ∧
      let hiAddr := if s.cfg.jmpIndPageBug then w.toNat / 256 * 256 + (w.toNat + 1) % 256 else (w.toNat + 1) % 65536
      exec (.jmpInd w) s = .next { s with
        pc := BitVec.ofNat 16 ((wordOfBytes (s.memRead w) (s.memRead (BitVec.ofNat 16 hiAddr))).toNat + 65535) })

/-- JSR: the address of its own last byte is pushed, high byte first, and PC is one less than the target; no flag and no
other register changes. PC on entry is the address of the last operand byte. -/
def Obligations.JsrPushesItsLastByteAddress : Prop :=
  ∀ (s : State) (w : Word), HasOpcode (.jsrAbs w) 0x20 ∧
    ∃ t, exec (.jsrAbs w) s = .next t ∧
      PushesOnly s t [BitVec.ofNat 8 (s.pc.toNat / 256), BitVec.ofNat 8 (s.pc.toNat % 256)] ∧
      t = { s with ram := t.ram, sp := BitVec.ofNat 8 (s.sp.toNat + 254), pc := BitVec.ofNat 16 (w.toNat + 65535) }

/-- RTS: PC takes the pulled word itself, low byte first; nothing but SP changes beside it. -/
def Obligations.RtsPullsThePc : Prop :=
  ∀ s : State, HasOpcode .rts 0x60 ∧
    exec .rts s = .next { s with sp := BitVec.ofNat 8 (s.sp.toNat + 2)
                                 pc := wordOfBytes (s.ramByte (slotAbove s 1)) (s.ramByte (slotAbove s 2)) }

/-- The eight branches: taken, PC is `(PC + sext_16(d)) mod 65536`; not taken, PC stays at the displacement byte; nothing
else changes. PC on entry is the address of the displacement byte. -/
def Obligations.BranchesMoveThePcOnTheirCondition : Prop :=
  ∀ (s : State) (d : Int),
    ∀ p ∈ [((0x90 : Byte), Instr.bcc d, s.flags.c = false), (0xB0, .bcs d, s.flags.c = true),
           (0xF0, .beq d, s.flags.z = true), (0x30, .bmi d, s.flags.n = true), (0xD0, .bne d, s.flags.z = false),
           (0x10, .bpl d, s.flags.n = false), (0x50, .bvc d, s.flags.v = false), (0x70, .bvs d, s.flags.v = true)],
      HasOpcode p.2.1 p.1 ∧
      (p.2.2 → exec p.2.1 s = .next { s with pc := BitVec.ofInt 16 (s.pc.toNat + d) }) ∧
      (¬ p.2.2 → exec p.2.1 s = .next s)

/-- CLC, CLD, CLI, CLV, SEC, SED and SEI write their one flag; NOP changes nothing and emits no signal. -/
def Obligations.FlagInstructionsWriteOneFlag : Prop :=
  ∀ s : State,
    ∀ p ∈ [((0x18 : Byte), Instr.clc, { s.flags with c := false }), (0xD8, .cld, { s.flags with d := false }),
           (0x58, .cli, { s.flags with i := false }), (0xB8, .clv, { s.flags with v := false }),
           (0x38, .sec, { s.flags with c := true }), (0xF8, .sed, { s.flags with d := true }),
           (0x78, .sei, { s.flags with i := true }), (0xEA, .nop, s.flags)],
      HasOpcode p.2.1 p.1 ∧ exec p.2.1 s = .next { s with flags := p.2.2 }

/-- BRK. On the stop path: B set, the padding byte passed, the signal, nothing else. Off it: the address of BRK plus 2 and
the status with B set are pushed, PC is one less than the vector's word read through the mode, B and I are set. The
padding byte is ignored, and `pending` and `inService` stay. PC on entry is BRK's own address. The step that runs BRK ends
with the interrupt check on the stop path, where I is unchanged, and delivers nothing off it, where I is 1. -/
def Obligations.BrkStopsOrEntersTheHandler : Prop :=
  ∀ (s : State) (pad : Byte), HasOpcode (.brk pad) 0x00 ∧
    (s.stopOnBreak = true → exec (.brk pad) s = .next { s with
      pc := BitVec.ofNat 16 (s.pc.toNat + 1), flags := { s.flags with b := true }
      signals := s.signals ++ [.breakStop] }) ∧
    (s.stopOnBreak = false → ∃ t, exec (.brk pad) s = .next t ∧
      PushesOnly s t [BitVec.ofNat 8 ((s.pc.toNat + 2) % 65536 / 256), BitVec.ofNat 8 (s.pc.toNat + 2),
        statusByte { s.flags with b := true }] ∧
      t = { s with
        ram := t.ram, sp := BitVec.ofNat 8 (s.sp.toNat + 253), flags := { s.flags with b := true, i := true }
        pc := BitVec.ofNat 16 ((wordOfBytes (s.memRead 0xFFFE) (s.memRead 0xFFFF)).toNat + 65535) }) ∧
    (s.memRead (s.pc + 1) = 0x00 → s.stopOnBreak = true → step s = .next (State.checkIrq { s with
      pc := s.pc + 2, flags := { s.flags with b := true }, signals := [.breakStop] })) ∧
    (s.memRead (s.pc + 1) = 0x00 → s.stopOnBreak = false →
      step s = exec (.brk (s.memRead (s.pc + 2))) { s with pc := s.pc + 1, signals := [] })

/-- RTI: all seven flags from the pulled byte, then PC one less than the pulled word; SP up by three; nothing else. The
step that runs it then clears the in-service flag and checks for an interrupt. -/
def Obligations.RtiRestoresFlagsAndPc : Prop :=
  ∀ s : State, HasOpcode .rti 0x40 ∧ ∃ t, t = { s with
      sp := BitVec.ofNat 8 (s.sp.toNat + 3), flags := flagsOfByte (s.ramByte (slotAbove s 1))
      pc := BitVec.ofNat 16 ((wordOfBytes (s.ramByte (slotAbove s 2)) (s.ramByte (slotAbove s 3))).toNat + 65535) } ∧
    exec .rti s = .next t ∧
    (s.memRead (s.pc + 1) = 0x40 → step s = .next (State.checkIrq { t with inService := false, signals := [] }))

/-- The instructions that write I decide the delivery at the end of their own step: after CLI a pending request is
delivered in the same step, after PLP whenever the pulled byte has bit 2 clear, and after SEI none is; SEI leaves it
pending. -/
def Obligations.MaskChangesDecideDeliveryInTheSameStep : Prop :=
  ∀ s : State,
    (s.memRead (s.pc + 1) = 0x58 → ∃ u, u = { s with
        pc := s.pc + 1, flags := { s.flags with i := false }, signals := [] } ∧ step s = .next u.checkIrq ∧
      (0 < s.pending → (s.cfg.irqGatedByInService = true → s.inService = false) → u.checkIrq = u.enterInterrupt) ∧
      (s.pending = 0 → u.checkIrq = u)) ∧
    (s.memRead (s.pc + 1) = 0x78 → step s = .next { s with
        pc := s.pc + 1, flags := { s.flags with i := true }, signals := [] }) ∧
    (s.memRead (s.pc + 1) = 0x28 → ∃ u, u = { s with
        pc := s.pc + 1, sp := BitVec.ofNat 8 (s.sp.toNat + 1), flags := flagsOfByte (s.ramByte (slotAbove s 1))
        signals := [] } ∧ step s = .next u.checkIrq ∧
      (0 < s.pending → (s.cfg.irqGatedByInService = true → s.inService = false) →
        (s.ramByte (slotAbove s 1)).toNat.testBit 2 = false → u.checkIrq = u.enterInterrupt))

/-- RTS after JSR: PC is again the address of JSR's last byte, SP is back, no other register or flag has changed. R165
marks it as derived. -/
def Obligations.ReturnComesBackBehindTheCall : Prop :=
  ∀ (s t : State) (w : Word), exec (.jsrAbs w) s = .next t →
    exec .rts t = .next { s with ram := t.ram }

/-- RTI after an interrupt entry: PC, SP and all seven flags are as before the entry, I clear again whether or not the
entry set it. R196 marks it as derived. -/
def Obligations.ReturnUndoesTheInterruptEntry : Prop :=
  ∀ s : State, DeliveryDue s →
    exec .rti s.checkIrq = .next { s with ram := s.checkIrq.ram, pending := s.pending - 1, inService := true }

/-- RTI after BRK goes on at BRK's address plus 2 with the old I and with B set (46_flags_system.md section 4). -/
def Obligations.ReturnGoesOnBehindTheBreak : Prop :=
  ∀ (s t : State) (pad : Byte), s.stopOnBreak = false → exec (.brk pad) s = .next t →
    exec .rti t = .next { s with ram := t.ram, pc := s.pc + 1, flags := { s.flags with b := true } }

/-! The cycle. -/

/-- A step runs the decoded instruction: it clears the signals, moves PC past the opcode and the operand bytes the
resolver reads, runs the instruction, clears the in-service flag after RTI, and checks for an interrupt (R110). -/
def Obligations.StepRunsTheDecodedInstruction : Prop :=
  ∀ (s : State) (i : Instr) (rest : List Byte),
    decode [s.memRead (s.pc + 1), s.memRead (s.pc + 2), s.memRead (s.pc + 3)] = .ok (i, rest) →
    ∀ t, exec i { s with signals := [], pc := s.pc + 1 + BitVec.ofNat 16 i.mode.operandBytes } = .next t →
      step s = .next (State.checkIrq (if i = .rti then { t with inService := false } else t))

/-- An illegal byte is a one-byte no-op: PC moves past it, the signal carries the byte and its address, then the
interrupt check runs as in every step (R185). -/
def Obligations.IllegalByteIsAOneByteNoOp : Prop :=
  ∀ s : State, illegalBytes.contains (s.memRead (s.pc + 1)) = true →
    step s = .next (State.checkIrq { s with
      pc := s.pc + 1, signals := [.illegalOpcode (s.memRead (s.pc + 1)) (s.pc + 1)] })

/-- Every step completes: from every state, whatever the bytes, a next state, and signals drawn from the two (R12). -/
def Obligations.EveryStepCompletes : Prop :=
  ∀ s : State, ∃ t, step s = .next t ∧
    (t.signals = [] ∨ t.signals = [.breakStop] ∨
      ∃ op, t.signals = [.illegalOpcode op (s.pc + 1)] ∧ illegalBytes.contains op = true)

/-- The interrupt check: where a request is due it takes the entry (three bytes pushed, SP down by three, one request
consumed, in-service set, I as `IRQ_ENTRY_SETS_I` says, PC one less than the vector's word); otherwise nothing (R191,
R192, R193). -/
def Obligations.InterruptCheckTakesTheEntry : Prop :=
  ∀ s : State,
    (DeliveryDue s →
      PushesOnly s s.checkIrq [BitVec.ofNat 8 ((s.pc.toNat + 1) % 65536 / 256), BitVec.ofNat 8 (s.pc.toNat + 1),
        statusByte s.flags] ∧
      s.checkIrq = { s with
        ram := s.checkIrq.ram, sp := BitVec.ofNat 8 (s.sp.toNat + 253), pending := s.pending - 1, inService := true
        flags := { s.flags with i := s.cfg.irqEntrySetsI }
        pc := BitVec.ofNat 16 ((wordOfBytes (s.memRead 0xFFFE) (s.memRead 0xFFFF)).toNat + 65535) }) ∧
    (¬ DeliveryDue s → s.checkIrq = s)

/-- A step delivers at most one request, and only RTI (opcode `$40`) and a delivery touch the in-service flag (R114,
R195). -/
def Obligations.StepDeliversAtMostOneRequest : Prop :=
  ∀ s t : State, step s = .next t →
    (t.pending = s.pending ∧ t.inService = (if s.memRead (s.pc + 1) = 0x40 then false else s.inService)) ∨
    (t.pending + 1 = s.pending ∧ t.inService = true)

/-- Raised requests add up to the capacity and no further: `pending <- min(pending + 1, IRQ_QUEUE_CAP)`, `n` times
over (R189). The premise is part of the invariant `State.Inv`. -/
def Obligations.RaisedRequestsSaturate : Prop :=
  ∀ (n : Nat) (s : State), s.pending ≤ s.cfg.irqQueueCap →
    State.raiseIrq^[n] s = { s with pending := min (s.pending + n) s.cfg.irqQueueCap }

/-! Whole-machine rules. -/

/-- Every step keeps the invariant: every chunk in canonical form, the latch within its capacity. -/
def Obligations.EveryStepKeepsTheInvariant : Prop :=
  ∀ s t : State, s.Inv → step s = .next t → t.Inv

/-- The state after reset has the invariant. -/
def Obligations.ResetHasTheInvariant : Prop := State.reset.Inv

/-- Reset establishes the launch values, an empty latch, and PC one less than the entry address, which is the fixed one
or the word at `$FFFC` read through the mode (R205, R206, R207). -/
def Obligations.ResetEstablishesTheLaunch : Prop :=
  ∀ l : Launch,
    resetFrom l = { pc := (resetFrom l).pc, a := l.a, x := l.x, y := l.y, sp := l.sp, flags := l.flags, pending := 0
                    inService := false, ram := l.ram, basic := l.basic, kernal := l.kernal, char := l.char
                    cartLo := l.cartLo, cartHi := l.cartHi, io := l.io, game := l.game, exrom := l.exrom
                    stopOnBreak := l.stopOnBreak, cfg := l.cfg, signals := [] } ∧
    (∀ e, l.cfg.resetEntry = some e → (resetFrom l).pc.toNat = (e.toNat + 65535) % 65536) ∧
    (l.cfg.resetEntry = none → (resetFrom l).pc.toNat =
      ((wordOfBytes ((resetFrom l).memRead 0xFFFC) ((resetFrom l).memRead 0xFFFD)).toNat + 65535) % 65536)

/-- The frame of the flags over all instructions: each flag is written only by the instructions 10_state.md section 3
lists for it. -/
def Obligations.FlagsAreWrittenOnlyByTheListedInstructions : Prop :=
  ∀ (i : Instr) (s t : State), exec i s = .next t →
    (writesC i = false → t.flags.c = s.flags.c) ∧ (writesNZ i = false → t.flags.z = s.flags.z ∧ t.flags.n = s.flags.n) ∧
    (writesI i = false → t.flags.i = s.flags.i) ∧ (writesD i = false → t.flags.d = s.flags.d) ∧
    (writesB i = false → t.flags.b = s.flags.b) ∧ (writesV i = false → t.flags.v = s.flags.v)

/-- The frame of the registers over all instructions: A, X, Y and SP are written only by the instructions 10_state.md
section 2 lists, PC moves only by a control transfer or BRK's padding fetch, and no instruction's own effect writes the
interrupt latch. -/
def Obligations.RegistersAreWrittenOnlyByTheListedInstructions : Prop :=
  ∀ (i : Instr) (s t : State), exec i s = .next t →
    (writesA i = false → t.a = s.a) ∧ (writesX i = false → t.x = s.x) ∧ (writesY i = false → t.y = s.y) ∧
    (writesSp i = false → t.sp = s.sp) ∧ (movesPc i = false → t.pc = s.pc) ∧
    t.pending = s.pending ∧ t.inService = s.inService

/-- The frame of memory over all instructions: every RAM byte outside the addresses the instruction stores to is
unchanged, and, where the port is not among them, so is every read through the mode. -/
def Obligations.MemoryChangesOnlyAtTheStoreAddresses : Prop :=
  ∀ (i : Instr) (s t : State), exec i s = .next t →
    (∀ a, a ∉ storeAddresses i s → t.ramByte a = s.ramByte a) ∧
    (portAddr ∉ storeAddresses i s → ∀ a, a ∉ storeAddresses i s → t.memRead a = s.memRead a)

/-- No step, interrupt entry included, writes a ROM, the I/O chunk, a cartridge line, the stop-on-break mode or a
parameter (10_state.md sections 6 and 7). -/
def Obligations.StepsNeverWriteRomIoLinesOrParameters : Prop :=
  ∀ s t : State, step s = .next t →
    t.basic = s.basic ∧ t.kernal = s.kernal ∧ t.char = s.char ∧ t.cartLo = s.cartLo ∧ t.cartHi = s.cartHi ∧
    t.io = s.io ∧ t.game = s.game ∧ t.exrom = s.exrom ∧ t.stopOnBreak = s.stopOnBreak ∧ t.cfg = s.cfg
end

