-- ==== Sys2Proof/Laws/Bits.lean ====
section
/-! SUPPORT. Words and their bytes; flags as numbers. -/

namespace Sys2Proof

theorem toNat_wordOf (hi lo : Byte) : (wordOf hi lo).toNat = 256 * hi.toNat + lo.toNat := by
  have hl := lo.isLt
  simp only [wordOf, BitVec.toNat_append, Nat.shiftLeft_eq]
  rw [Nat.mul_comm, ← Nat.two_pow_add_eq_or_of_lt hl]

theorem toNat_zext16 (b : Byte) : (zext16 b).toNat = b.toNat := by
  have := b.isLt; simp [zext16]; omega

theorem toNat_loByte (w : Word) : (loByte w).toNat = w.toNat % 256 := by simp [loByte]

theorem toNat_hiByte (w : Word) : (hiByte w).toNat = w.toNat / 256 := by
  have := w.isLt; simp [hiByte, Nat.shiftRight_eq_div_pow]; omega

@[simp] theorem loByte_wordOf (hi lo : Byte) : loByte (wordOf hi lo) = lo := by
  have := lo.isLt
  apply BitVec.eq_of_toNat_eq; rw [toNat_loByte, toNat_wordOf]; omega

@[simp] theorem hiByte_wordOf (hi lo : Byte) : hiByte (wordOf hi lo) = hi := by
  have := lo.isLt
  apply BitVec.eq_of_toNat_eq; rw [toNat_hiByte, toNat_wordOf]; omega

@[simp] theorem wordOf_bytes (w : Word) : wordOf (hiByte w) (loByte w) = w := by
  apply BitVec.eq_of_toNat_eq; rw [toNat_wordOf, toNat_hiByte, toNat_loByte]; omega

/-- The page of one word and the offset of another. -/
theorem page_or (u v : Word) : (u &&& 0xFF00) ||| (v &&& 0x00FF) = wordOf (hiByte u) (loByte v) := by
  apply BitVec.eq_of_getLsbD_eq
  intro i hi
  simp only [wordOf, hiByte, loByte, BitVec.getLsbD_append]
  interval_cases i <;> simp

/-- Bit 7 of a byte, as a comparison of its unsigned value. -/
theorem getLsbD_seven (v : Byte) : v.getLsbD 7 = decide (128 ≤ v.toNat) := by
  have h := v.isLt
  rw [BitVec.getLsbD, Nat.testBit_eq_decide_div_mod_eq]
  simp only [decide_eq_decide]; omega

/-- A byte is zero when its unsigned value is. -/
theorem beq_zero (v : Byte) : (v == 0) = decide (v.toNat = 0) := by
  rw [Bool.eq_iff_iff]; simp [BitVec.toNat_eq]

@[simp] theorem toNat_bitByte (b : Bool) : (bitByte b).toNat = bitNat b := by cases b <;> rfl

/-- Encoding a displacement that fits and reading it back. -/
theorem sext8_ofInt {d : Int} (h1 : -128 ≤ d) (h2 : d ≤ 127) : sext8 (BitVec.ofInt 8 d) = d := by
  simp only [sext8, BitVec.toInt_ofInt]; rw [Int.bmod_def]; omega

end Sys2Proof
end

