-- ==== Sys2Proof/Laws/Memory.lean ====
section
/-! SUPPORT. The laws of the byte arrays: a read after a write, and that every operation keeps the canonical form. -/

namespace Sys2Proof.Machine.Memory

variable {k : ChunkKind} {m : Memory} {a b : Nat} {v : Byte}

@[simp] theorem read_nil : read k [] a = unlisted k a := rfl

theorem read_erase_same : read k (erase a m) a = unlisted k a := by
  induction m with
  | nil => rfl
  | cons e m ih =>
    obtain ⟨c, w⟩ := e
    by_cases h : a = c <;> simp [erase, read, h]
    · rw [← h]; exact ih
    · exact ih

theorem read_erase_other (h : b ≠ a) : read k (erase a m) b = read k m b := by
  induction m with
  | nil => rfl
  | cons e m ih =>
    obtain ⟨c, w⟩ := e
    by_cases hc : a = c
    · subst hc; simp [erase, read, h, ih]
    · by_cases hb : b = c <;> simp [erase, read, hc, hb, ih]

theorem read_insert_other (h : b ≠ a) : read k (insert a v m) b = read k m b := by
  induction m with
  | nil => simp [insert, read, h]
  | cons e m ih =>
    obtain ⟨c, w⟩ := e
    by_cases hc : a < c
    · simp [insert, read, hc, h]
    · by_cases hb : b = c <;> simp [insert, read, hc, hb, ih]

theorem read_insert_erase : read k (insert a v (erase a m)) a = v := by
  induction m with
  | nil => simp [erase, insert, read]
  | cons e m ih =>
    obtain ⟨c, w⟩ := e
    by_cases hc : a = c
    · simp [erase, hc]; rw [← hc]; exact ih
    · by_cases hl : a < c <;> simp [erase, insert, read, hc, hl, ih]

/-- A read after a write to the same place gives the value written. -/
@[simp] theorem read_write_same : read k (write k m a v) a = v := by
  unfold write
  split
  · next h => rw [read_erase_same, h]
  · exact read_insert_erase

/-- A write leaves every other place alone. -/
theorem read_write_other (h : b ≠ a) : read k (write k m a v) b = read k m b := by
  unfold write
  split
  · exact read_erase_other h
  · rw [read_insert_other h, read_erase_other h]

/-- What a read after a write gives, in one equation. -/
theorem read_write : read k (write k m a v) b = if b = a then v else read k m b := by
  by_cases h : b = a
  · subst h; simp
  · simp [h, read_write_other h]

theorem risingFrom_mono {lo hi : Nat} (h : lo ≤ hi) (hm : risingFrom hi m = true) : risingFrom lo m = true := by
  cases m with
  | nil => rfl
  | cons e m =>
    obtain ⟨c, w⟩ := e
    simp only [risingFrom, Bool.and_eq_true, decide_eq_true_eq] at hm ⊢
    exact ⟨by omega, hm.2⟩

theorem risingFrom_erase {lo : Nat} (hm : risingFrom lo m = true) : risingFrom lo (erase a m) = true := by
  induction m generalizing lo with
  | nil => rfl
  | cons e m ih =>
    obtain ⟨c, w⟩ := e
    simp only [risingFrom, Bool.and_eq_true, decide_eq_true_eq] at hm
    unfold erase
    split
    · exact risingFrom_mono (by omega) (ih hm.2)
    · simp only [risingFrom, Bool.and_eq_true, decide_eq_true_eq]
      exact ⟨hm.1, ih hm.2⟩

theorem mem_erase {e : Host.Cell} (h : e ∈ erase a m) : e ∈ m ∧ e.1 ≠ a := by
  induction m with
  | nil => simp [erase] at h
  | cons f m ih =>
    obtain ⟨c, w⟩ := f
    unfold erase at h
    split at h
    · exact ⟨List.mem_cons_of_mem _ (ih h).1, (ih h).2⟩
    · next hc =>
      rcases List.mem_cons.1 h with rfl | h
      · exact ⟨List.mem_cons_self, fun he => hc he.symm⟩
      · exact ⟨List.mem_cons_of_mem _ (ih h).1, (ih h).2⟩

theorem mem_insert {e : Host.Cell} (h : e ∈ insert a v m) : e = (a, v) ∨ e ∈ m := by
  induction m with
  | nil => simpa [insert] using h
  | cons f m ih =>
    obtain ⟨c, w⟩ := f
    unfold insert at h
    split at h
    · simpa using h
    · rcases List.mem_cons.1 h with rfl | h
      · exact .inr List.mem_cons_self
      · exact (ih h).imp_right (List.mem_cons_of_mem _)

theorem risingFrom_insert {lo : Nat} (hl : lo ≤ a) (hm : risingFrom lo m = true) (hn : ∀ e ∈ m, e.1 ≠ a) :
    risingFrom lo (insert a v m) = true := by
  induction m generalizing lo with
  | nil => simp [insert, risingFrom, hl]
  | cons e m ih =>
    obtain ⟨c, w⟩ := e
    simp only [risingFrom, Bool.and_eq_true, decide_eq_true_eq] at hm
    have hc : c ≠ a := hn (c, w) List.mem_cons_self
    unfold insert
    split
    · next h =>
      simp only [risingFrom, Bool.and_eq_true, decide_eq_true_eq]
      exact ⟨hl, by omega, hm.2⟩
    · next h =>
      simp only [risingFrom, Bool.and_eq_true, decide_eq_true_eq]
      exact ⟨hm.1, ih (by omega) hm.2 fun e he => hn e (List.mem_cons_of_mem _ he)⟩

/-- What the canonical form says. -/
theorem wf_iff : wf k m = true ↔ risingFrom 0 m = true ∧ ∀ e ∈ m, e.1 < k.size ∧ e.2 ≠ unlisted k e.1 := by
  simp [wf]

@[simp] theorem wf_nil : wf k [] = true := rfl

/-- A write inside the chunk keeps the canonical form. -/
theorem wf_write (ha : a < k.size) (hm : wf k m = true) : wf k (write k m a v) = true := by
  rw [wf_iff] at hm ⊢
  have he : ∀ e ∈ erase a m, e.1 < k.size ∧ e.2 ≠ unlisted k e.1 := fun e h => hm.2 e (mem_erase h).1
  unfold write
  split
  · exact ⟨risingFrom_erase hm.1, he⟩
  · next hv =>
    refine ⟨risingFrom_insert (by omega) (risingFrom_erase hm.1) fun e h => (mem_erase h).2, fun e h => ?_⟩
    rcases mem_insert h with rfl | h
    · exact ⟨ha, hv⟩
    · exact he e h

theorem risingFrom_image {lo : Nat} {l : List Byte} (h : lo ≤ a) : risingFrom lo (image k a l) = true := by
  induction l generalizing lo a with
  | nil => rfl
  | cons w l ih =>
    unfold image
    split
    · exact ih (by omega)
    · simp only [risingFrom, Bool.and_eq_true, decide_eq_true_eq]
      exact ⟨h, ih (by omega)⟩

theorem mem_image {l : List Byte} {e : Host.Cell} (h : e ∈ image k a l) :
    e.1 < a + l.length ∧ e.2 ≠ unlisted k e.1 := by
  induction l generalizing a with
  | nil => simp [image] at h
  | cons w l ih =>
    unfold image at h
    split at h
    · have := ih h; simp only [List.length_cons]; exact ⟨by omega, this.2⟩
    · next hw =>
      rcases List.mem_cons.1 h with rfl | h
      · exact ⟨by simp, hw⟩
      · have := ih h; simp only [List.length_cons]; exact ⟨by omega, this.2⟩

/-- A loaded buffer no longer than the chunk is in canonical form. -/
theorem wf_image {l : List Byte} (h : l.length ≤ k.size) : wf k (image k 0 l) = true := by
  rw [wf_iff]
  exact ⟨risingFrom_image (Nat.le_refl 0), fun e he => ⟨by have := (mem_image he).1; omega, (mem_image he).2⟩⟩

end Sys2Proof.Machine.Memory
end

