-- ==== Sys2Proof/Laws/State.lean ====
section
/-! SUPPORT. One lemma per field per update of State, so that no proof unfolds a record update. -/

namespace Sys2Proof.Machine.State

section
variable (s : State) (v : Word)
@[simp] theorem setPc_pc : (s.setPc v).pc = v := rfl
@[simp] theorem setPc_a : (s.setPc v).a = s.a := rfl
@[simp] theorem setPc_x : (s.setPc v).x = s.x := rfl
@[simp] theorem setPc_y : (s.setPc v).y = s.y := rfl
@[simp] theorem setPc_sp : (s.setPc v).sp = s.sp := rfl
@[simp] theorem setPc_flags : (s.setPc v).flags = s.flags := rfl
@[simp] theorem setPc_pending : (s.setPc v).pending = s.pending := rfl
@[simp] theorem setPc_inService : (s.setPc v).inService = s.inService := rfl
@[simp] theorem setPc_ram : (s.setPc v).ram = s.ram := rfl
@[simp] theorem setPc_basic : (s.setPc v).basic = s.basic := rfl
@[simp] theorem setPc_kernal : (s.setPc v).kernal = s.kernal := rfl
@[simp] theorem setPc_char : (s.setPc v).char = s.char := rfl
@[simp] theorem setPc_cartLo : (s.setPc v).cartLo = s.cartLo := rfl
@[simp] theorem setPc_cartHi : (s.setPc v).cartHi = s.cartHi := rfl
@[simp] theorem setPc_io : (s.setPc v).io = s.io := rfl
@[simp] theorem setPc_game : (s.setPc v).game = s.game := rfl
@[simp] theorem setPc_exrom : (s.setPc v).exrom = s.exrom := rfl
@[simp] theorem setPc_stopOnBreak : (s.setPc v).stopOnBreak = s.stopOnBreak := rfl
@[simp] theorem setPc_cfg : (s.setPc v).cfg = s.cfg := rfl
@[simp] theorem setPc_signals : (s.setPc v).signals = s.signals := rfl
/-- The last of two updates of one field wins. -/
@[simp] theorem setPc_setPc (w : Word) : (s.setPc v).setPc w = s.setPc w := rfl
end

section
variable (s : State) (v : Byte)
@[simp] theorem setA_pc : (s.setA v).pc = s.pc := rfl
@[simp] theorem setA_a : (s.setA v).a = v := rfl
@[simp] theorem setA_x : (s.setA v).x = s.x := rfl
@[simp] theorem setA_y : (s.setA v).y = s.y := rfl
@[simp] theorem setA_sp : (s.setA v).sp = s.sp := rfl
@[simp] theorem setA_flags : (s.setA v).flags = s.flags := rfl
@[simp] theorem setA_pending : (s.setA v).pending = s.pending := rfl
@[simp] theorem setA_inService : (s.setA v).inService = s.inService := rfl
@[simp] theorem setA_ram : (s.setA v).ram = s.ram := rfl
@[simp] theorem setA_basic : (s.setA v).basic = s.basic := rfl
@[simp] theorem setA_kernal : (s.setA v).kernal = s.kernal := rfl
@[simp] theorem setA_char : (s.setA v).char = s.char := rfl
@[simp] theorem setA_cartLo : (s.setA v).cartLo = s.cartLo := rfl
@[simp] theorem setA_cartHi : (s.setA v).cartHi = s.cartHi := rfl
@[simp] theorem setA_io : (s.setA v).io = s.io := rfl
@[simp] theorem setA_game : (s.setA v).game = s.game := rfl
@[simp] theorem setA_exrom : (s.setA v).exrom = s.exrom := rfl
@[simp] theorem setA_stopOnBreak : (s.setA v).stopOnBreak = s.stopOnBreak := rfl
@[simp] theorem setA_cfg : (s.setA v).cfg = s.cfg := rfl
@[simp] theorem setA_signals : (s.setA v).signals = s.signals := rfl
/-- The last of two updates of one field wins. -/
@[simp] theorem setA_setA (w : Byte) : (s.setA v).setA w = s.setA w := rfl
end

section
variable (s : State) (v : Byte)
@[simp] theorem setX_pc : (s.setX v).pc = s.pc := rfl
@[simp] theorem setX_a : (s.setX v).a = s.a := rfl
@[simp] theorem setX_x : (s.setX v).x = v := rfl
@[simp] theorem setX_y : (s.setX v).y = s.y := rfl
@[simp] theorem setX_sp : (s.setX v).sp = s.sp := rfl
@[simp] theorem setX_flags : (s.setX v).flags = s.flags := rfl
@[simp] theorem setX_pending : (s.setX v).pending = s.pending := rfl
@[simp] theorem setX_inService : (s.setX v).inService = s.inService := rfl
@[simp] theorem setX_ram : (s.setX v).ram = s.ram := rfl
@[simp] theorem setX_basic : (s.setX v).basic = s.basic := rfl
@[simp] theorem setX_kernal : (s.setX v).kernal = s.kernal := rfl
@[simp] theorem setX_char : (s.setX v).char = s.char := rfl
@[simp] theorem setX_cartLo : (s.setX v).cartLo = s.cartLo := rfl
@[simp] theorem setX_cartHi : (s.setX v).cartHi = s.cartHi := rfl
@[simp] theorem setX_io : (s.setX v).io = s.io := rfl
@[simp] theorem setX_game : (s.setX v).game = s.game := rfl
@[simp] theorem setX_exrom : (s.setX v).exrom = s.exrom := rfl
@[simp] theorem setX_stopOnBreak : (s.setX v).stopOnBreak = s.stopOnBreak := rfl
@[simp] theorem setX_cfg : (s.setX v).cfg = s.cfg := rfl
@[simp] theorem setX_signals : (s.setX v).signals = s.signals := rfl
/-- The last of two updates of one field wins. -/
@[simp] theorem setX_setX (w : Byte) : (s.setX v).setX w = s.setX w := rfl
end

section
variable (s : State) (v : Byte)
@[simp] theorem setY_pc : (s.setY v).pc = s.pc := rfl
@[simp] theorem setY_a : (s.setY v).a = s.a := rfl
@[simp] theorem setY_x : (s.setY v).x = s.x := rfl
@[simp] theorem setY_y : (s.setY v).y = v := rfl
@[simp] theorem setY_sp : (s.setY v).sp = s.sp := rfl
@[simp] theorem setY_flags : (s.setY v).flags = s.flags := rfl
@[simp] theorem setY_pending : (s.setY v).pending = s.pending := rfl
@[simp] theorem setY_inService : (s.setY v).inService = s.inService := rfl
@[simp] theorem setY_ram : (s.setY v).ram = s.ram := rfl
@[simp] theorem setY_basic : (s.setY v).basic = s.basic := rfl
@[simp] theorem setY_kernal : (s.setY v).kernal = s.kernal := rfl
@[simp] theorem setY_char : (s.setY v).char = s.char := rfl
@[simp] theorem setY_cartLo : (s.setY v).cartLo = s.cartLo := rfl
@[simp] theorem setY_cartHi : (s.setY v).cartHi = s.cartHi := rfl
@[simp] theorem setY_io : (s.setY v).io = s.io := rfl
@[simp] theorem setY_game : (s.setY v).game = s.game := rfl
@[simp] theorem setY_exrom : (s.setY v).exrom = s.exrom := rfl
@[simp] theorem setY_stopOnBreak : (s.setY v).stopOnBreak = s.stopOnBreak := rfl
@[simp] theorem setY_cfg : (s.setY v).cfg = s.cfg := rfl
@[simp] theorem setY_signals : (s.setY v).signals = s.signals := rfl
/-- The last of two updates of one field wins. -/
@[simp] theorem setY_setY (w : Byte) : (s.setY v).setY w = s.setY w := rfl
end

section
variable (s : State) (v : Byte)
@[simp] theorem setSp_pc : (s.setSp v).pc = s.pc := rfl
@[simp] theorem setSp_a : (s.setSp v).a = s.a := rfl
@[simp] theorem setSp_x : (s.setSp v).x = s.x := rfl
@[simp] theorem setSp_y : (s.setSp v).y = s.y := rfl
@[simp] theorem setSp_sp : (s.setSp v).sp = v := rfl
@[simp] theorem setSp_flags : (s.setSp v).flags = s.flags := rfl
@[simp] theorem setSp_pending : (s.setSp v).pending = s.pending := rfl
@[simp] theorem setSp_inService : (s.setSp v).inService = s.inService := rfl
@[simp] theorem setSp_ram : (s.setSp v).ram = s.ram := rfl
@[simp] theorem setSp_basic : (s.setSp v).basic = s.basic := rfl
@[simp] theorem setSp_kernal : (s.setSp v).kernal = s.kernal := rfl
@[simp] theorem setSp_char : (s.setSp v).char = s.char := rfl
@[simp] theorem setSp_cartLo : (s.setSp v).cartLo = s.cartLo := rfl
@[simp] theorem setSp_cartHi : (s.setSp v).cartHi = s.cartHi := rfl
@[simp] theorem setSp_io : (s.setSp v).io = s.io := rfl
@[simp] theorem setSp_game : (s.setSp v).game = s.game := rfl
@[simp] theorem setSp_exrom : (s.setSp v).exrom = s.exrom := rfl
@[simp] theorem setSp_stopOnBreak : (s.setSp v).stopOnBreak = s.stopOnBreak := rfl
@[simp] theorem setSp_cfg : (s.setSp v).cfg = s.cfg := rfl
@[simp] theorem setSp_signals : (s.setSp v).signals = s.signals := rfl
/-- The last of two updates of one field wins. -/
@[simp] theorem setSp_setSp (w : Byte) : (s.setSp v).setSp w = s.setSp w := rfl
end

section
variable (s : State) (v : Flags)
@[simp] theorem setFlags_pc : (s.setFlags v).pc = s.pc := rfl
@[simp] theorem setFlags_a : (s.setFlags v).a = s.a := rfl
@[simp] theorem setFlags_x : (s.setFlags v).x = s.x := rfl
@[simp] theorem setFlags_y : (s.setFlags v).y = s.y := rfl
@[simp] theorem setFlags_sp : (s.setFlags v).sp = s.sp := rfl
@[simp] theorem setFlags_flags : (s.setFlags v).flags = v := rfl
@[simp] theorem setFlags_pending : (s.setFlags v).pending = s.pending := rfl
@[simp] theorem setFlags_inService : (s.setFlags v).inService = s.inService := rfl
@[simp] theorem setFlags_ram : (s.setFlags v).ram = s.ram := rfl
@[simp] theorem setFlags_basic : (s.setFlags v).basic = s.basic := rfl
@[simp] theorem setFlags_kernal : (s.setFlags v).kernal = s.kernal := rfl
@[simp] theorem setFlags_char : (s.setFlags v).char = s.char := rfl
@[simp] theorem setFlags_cartLo : (s.setFlags v).cartLo = s.cartLo := rfl
@[simp] theorem setFlags_cartHi : (s.setFlags v).cartHi = s.cartHi := rfl
@[simp] theorem setFlags_io : (s.setFlags v).io = s.io := rfl
@[simp] theorem setFlags_game : (s.setFlags v).game = s.game := rfl
@[simp] theorem setFlags_exrom : (s.setFlags v).exrom = s.exrom := rfl
@[simp] theorem setFlags_stopOnBreak : (s.setFlags v).stopOnBreak = s.stopOnBreak := rfl
@[simp] theorem setFlags_cfg : (s.setFlags v).cfg = s.cfg := rfl
@[simp] theorem setFlags_signals : (s.setFlags v).signals = s.signals := rfl
/-- The last of two updates of one field wins. -/
@[simp] theorem setFlags_setFlags (w : Flags) : (s.setFlags v).setFlags w = s.setFlags w := rfl
end

section
variable (s : State) (v : Nat)
@[simp] theorem setPending_pc : (s.setPending v).pc = s.pc := rfl
@[simp] theorem setPending_a : (s.setPending v).a = s.a := rfl
@[simp] theorem setPending_x : (s.setPending v).x = s.x := rfl
@[simp] theorem setPending_y : (s.setPending v).y = s.y := rfl
@[simp] theorem setPending_sp : (s.setPending v).sp = s.sp := rfl
@[simp] theorem setPending_flags : (s.setPending v).flags = s.flags := rfl
@[simp] theorem setPending_pending : (s.setPending v).pending = v := rfl
@[simp] theorem setPending_inService : (s.setPending v).inService = s.inService := rfl
@[simp] theorem setPending_ram : (s.setPending v).ram = s.ram := rfl
@[simp] theorem setPending_basic : (s.setPending v).basic = s.basic := rfl
@[simp] theorem setPending_kernal : (s.setPending v).kernal = s.kernal := rfl
@[simp] theorem setPending_char : (s.setPending v).char = s.char := rfl
@[simp] theorem setPending_cartLo : (s.setPending v).cartLo = s.cartLo := rfl
@[simp] theorem setPending_cartHi : (s.setPending v).cartHi = s.cartHi := rfl
@[simp] theorem setPending_io : (s.setPending v).io = s.io := rfl
@[simp] theorem setPending_game : (s.setPending v).game = s.game := rfl
@[simp] theorem setPending_exrom : (s.setPending v).exrom = s.exrom := rfl
@[simp] theorem setPending_stopOnBreak : (s.setPending v).stopOnBreak = s.stopOnBreak := rfl
@[simp] theorem setPending_cfg : (s.setPending v).cfg = s.cfg := rfl
@[simp] theorem setPending_signals : (s.setPending v).signals = s.signals := rfl
/-- The last of two updates of one field wins. -/
@[simp] theorem setPending_setPending (w : Nat) : (s.setPending v).setPending w = s.setPending w := rfl
end

section
variable (s : State) (v : Bool)
@[simp] theorem setInService_pc : (s.setInService v).pc = s.pc := rfl
@[simp] theorem setInService_a : (s.setInService v).a = s.a := rfl
@[simp] theorem setInService_x : (s.setInService v).x = s.x := rfl
@[simp] theorem setInService_y : (s.setInService v).y = s.y := rfl
@[simp] theorem setInService_sp : (s.setInService v).sp = s.sp := rfl
@[simp] theorem setInService_flags : (s.setInService v).flags = s.flags := rfl
@[simp] theorem setInService_pending : (s.setInService v).pending = s.pending := rfl
@[simp] theorem setInService_inService : (s.setInService v).inService = v := rfl
@[simp] theorem setInService_ram : (s.setInService v).ram = s.ram := rfl
@[simp] theorem setInService_basic : (s.setInService v).basic = s.basic := rfl
@[simp] theorem setInService_kernal : (s.setInService v).kernal = s.kernal := rfl
@[simp] theorem setInService_char : (s.setInService v).char = s.char := rfl
@[simp] theorem setInService_cartLo : (s.setInService v).cartLo = s.cartLo := rfl
@[simp] theorem setInService_cartHi : (s.setInService v).cartHi = s.cartHi := rfl
@[simp] theorem setInService_io : (s.setInService v).io = s.io := rfl
@[simp] theorem setInService_game : (s.setInService v).game = s.game := rfl
@[simp] theorem setInService_exrom : (s.setInService v).exrom = s.exrom := rfl
@[simp] theorem setInService_stopOnBreak : (s.setInService v).stopOnBreak = s.stopOnBreak := rfl
@[simp] theorem setInService_cfg : (s.setInService v).cfg = s.cfg := rfl
@[simp] theorem setInService_signals : (s.setInService v).signals = s.signals := rfl
/-- The last of two updates of one field wins. -/
@[simp] theorem setInService_setInService (w : Bool) : (s.setInService v).setInService w = s.setInService w := rfl
end

section
variable (s : State) (v : Memory)
@[simp] theorem setRam_pc : (s.setRam v).pc = s.pc := rfl
@[simp] theorem setRam_a : (s.setRam v).a = s.a := rfl
@[simp] theorem setRam_x : (s.setRam v).x = s.x := rfl
@[simp] theorem setRam_y : (s.setRam v).y = s.y := rfl
@[simp] theorem setRam_sp : (s.setRam v).sp = s.sp := rfl
@[simp] theorem setRam_flags : (s.setRam v).flags = s.flags := rfl
@[simp] theorem setRam_pending : (s.setRam v).pending = s.pending := rfl
@[simp] theorem setRam_inService : (s.setRam v).inService = s.inService := rfl
@[simp] theorem setRam_ram : (s.setRam v).ram = v := rfl
@[simp] theorem setRam_basic : (s.setRam v).basic = s.basic := rfl
@[simp] theorem setRam_kernal : (s.setRam v).kernal = s.kernal := rfl
@[simp] theorem setRam_char : (s.setRam v).char = s.char := rfl
@[simp] theorem setRam_cartLo : (s.setRam v).cartLo = s.cartLo := rfl
@[simp] theorem setRam_cartHi : (s.setRam v).cartHi = s.cartHi := rfl
@[simp] theorem setRam_io : (s.setRam v).io = s.io := rfl
@[simp] theorem setRam_game : (s.setRam v).game = s.game := rfl
@[simp] theorem setRam_exrom : (s.setRam v).exrom = s.exrom := rfl
@[simp] theorem setRam_stopOnBreak : (s.setRam v).stopOnBreak = s.stopOnBreak := rfl
@[simp] theorem setRam_cfg : (s.setRam v).cfg = s.cfg := rfl
@[simp] theorem setRam_signals : (s.setRam v).signals = s.signals := rfl
/-- The last of two updates of one field wins. -/
@[simp] theorem setRam_setRam (w : Memory) : (s.setRam v).setRam w = s.setRam w := rfl
end

section
variable (s : State) (v : List Signal)
@[simp] theorem setSignals_pc : (s.setSignals v).pc = s.pc := rfl
@[simp] theorem setSignals_a : (s.setSignals v).a = s.a := rfl
@[simp] theorem setSignals_x : (s.setSignals v).x = s.x := rfl
@[simp] theorem setSignals_y : (s.setSignals v).y = s.y := rfl
@[simp] theorem setSignals_sp : (s.setSignals v).sp = s.sp := rfl
@[simp] theorem setSignals_flags : (s.setSignals v).flags = s.flags := rfl
@[simp] theorem setSignals_pending : (s.setSignals v).pending = s.pending := rfl
@[simp] theorem setSignals_inService : (s.setSignals v).inService = s.inService := rfl
@[simp] theorem setSignals_ram : (s.setSignals v).ram = s.ram := rfl
@[simp] theorem setSignals_basic : (s.setSignals v).basic = s.basic := rfl
@[simp] theorem setSignals_kernal : (s.setSignals v).kernal = s.kernal := rfl
@[simp] theorem setSignals_char : (s.setSignals v).char = s.char := rfl
@[simp] theorem setSignals_cartLo : (s.setSignals v).cartLo = s.cartLo := rfl
@[simp] theorem setSignals_cartHi : (s.setSignals v).cartHi = s.cartHi := rfl
@[simp] theorem setSignals_io : (s.setSignals v).io = s.io := rfl
@[simp] theorem setSignals_game : (s.setSignals v).game = s.game := rfl
@[simp] theorem setSignals_exrom : (s.setSignals v).exrom = s.exrom := rfl
@[simp] theorem setSignals_stopOnBreak : (s.setSignals v).stopOnBreak = s.stopOnBreak := rfl
@[simp] theorem setSignals_cfg : (s.setSignals v).cfg = s.cfg := rfl
@[simp] theorem setSignals_signals : (s.setSignals v).signals = v := rfl
/-- The last of two updates of one field wins. -/
@[simp] theorem setSignals_setSignals (w : List Signal) : (s.setSignals v).setSignals w = s.setSignals w := rfl
end

end Sys2Proof.Machine.State
end

