-- ==== Sys2Proof/Laws/Mmu.lean ====
section
/-! SUPPORT. What reading and writing through the MMU depend on and change. -/

namespace Sys2Proof.Machine

/-- The zone of an address, with its bounds in numbers (20_memory.md R51, R52). -/
theorem zoneOf_cases (a : Word) :
    (zoneOf a = .z0 ∧ a.toNat < 0x1000) ∨
    (zoneOf a = .z1 ∧ 0x1000 ≤ a.toNat ∧ a.toNat < 0x8000) ∨
    (zoneOf a = .z2 ∧ 0x8000 ≤ a.toNat ∧ a.toNat < 0xA000) ∨
    (zoneOf a = .z3 ∧ 0xA000 ≤ a.toNat ∧ a.toNat < 0xC000) ∨
    (zoneOf a = .z4 ∧ 0xC000 ≤ a.toNat ∧ a.toNat < 0xD000) ∨
    (zoneOf a = .z5 ∧ 0xD000 ≤ a.toNat ∧ a.toNat < 0xE000) ∨
    (zoneOf a = .z6 ∧ 0xE000 ≤ a.toNat) := by
  have le (b : Word) : a ≤ b ↔ a.toNat ≤ b.toNat := BitVec.le_def
  unfold zoneOf
  simp only [le, BitVec.ofNat_eq_ofNat, BitVec.toNat_ofNat, Nat.reducePow, Nat.reduceMod]
  repeat' split
  all_goals simp; try omega

/-- Zone 0 is RAM in every mode (20_memory.md R55). -/
theorem chunkFor_z0 : ∀ mode : BitVec 5, chunkFor mode .z0 = .ram := by decide

namespace State

section
variable (s : State)

/-- Two states with the same RAM and lines are in the same mode (10_state.md R34). -/
theorem mode_congr {s t : State} (hr : t.ram = s.ram) (hg : t.game = s.game) (he : t.exrom = s.exrom) :
    t.mode = s.mode := by simp only [mode, ramByte, hr, hg, he]

/-- A read depends on the chunks, the lines and the open-bus value, and on no register (R56). -/
theorem memRead_congr {s t : State} (hr : t.ram = s.ram) (hb : t.basic = s.basic) (hk : t.kernal = s.kernal)
    (hc : t.char = s.char) (hl : t.cartLo = s.cartLo) (hh : t.cartHi = s.cartHi) (hi : t.io = s.io)
    (hg : t.game = s.game) (he : t.exrom = s.exrom) (hf : t.cfg = s.cfg) (addr : Word) :
    t.memRead addr = s.memRead addr := by
  simp only [memRead, servedBy, mode_congr hr hg he, ramByte, hr, hb, hk, hc, hl, hh, hi, hf]

@[simp] theorem memRead_setPc (v a) : (s.setPc v).memRead a = s.memRead a := rfl
@[simp] theorem memRead_setA (v a) : (s.setA v).memRead a = s.memRead a := rfl
@[simp] theorem memRead_setX (v a) : (s.setX v).memRead a = s.memRead a := rfl
@[simp] theorem memRead_setY (v a) : (s.setY v).memRead a = s.memRead a := rfl
@[simp] theorem memRead_setSp (v a) : (s.setSp v).memRead a = s.memRead a := rfl
@[simp] theorem memRead_setFlags (v a) : (s.setFlags v).memRead a = s.memRead a := rfl
@[simp] theorem memRead_setPending (v a) : (s.setPending v).memRead a = s.memRead a := rfl
@[simp] theorem memRead_setInService (v a) : (s.setInService v).memRead a = s.memRead a := rfl
@[simp] theorem memRead_setSignals (v a) : (s.setSignals v).memRead a = s.memRead a := rfl

@[simp] theorem ramByte_setPc (v a) : (s.setPc v).ramByte a = s.ramByte a := rfl
@[simp] theorem ramByte_setA (v a) : (s.setA v).ramByte a = s.ramByte a := rfl
@[simp] theorem ramByte_setX (v a) : (s.setX v).ramByte a = s.ramByte a := rfl
@[simp] theorem ramByte_setY (v a) : (s.setY v).ramByte a = s.ramByte a := rfl
@[simp] theorem ramByte_setSp (v a) : (s.setSp v).ramByte a = s.ramByte a := rfl
@[simp] theorem ramByte_setFlags (v a) : (s.setFlags v).ramByte a = s.ramByte a := rfl
@[simp] theorem ramByte_setPending (v a) : (s.setPending v).ramByte a = s.ramByte a := rfl
@[simp] theorem ramByte_setInService (v a) : (s.setInService v).ramByte a = s.ramByte a := rfl
@[simp] theorem ramByte_setSignals (v a) : (s.setSignals v).ramByte a = s.ramByte a := rfl

@[simp] theorem mode_setPc (v) : (s.setPc v).mode = s.mode := rfl
@[simp] theorem mode_setSp (v) : (s.setSp v).mode = s.mode := rfl
@[simp] theorem mode_setFlags (v) : (s.setFlags v).mode = s.mode := rfl

/-- A write is an update of RAM and of nothing else (R57). -/
theorem memWrite_eq (a v) : s.memWrite a v = s.setRam (Memory.write .ram s.ram a.toNat v) := rfl

@[simp] theorem memWrite_pc (a v) : (s.memWrite a v).pc = s.pc := rfl
@[simp] theorem memWrite_a (a v) : (s.memWrite a v).a = s.a := rfl
@[simp] theorem memWrite_x (a v) : (s.memWrite a v).x = s.x := rfl
@[simp] theorem memWrite_y (a v) : (s.memWrite a v).y = s.y := rfl
@[simp] theorem memWrite_sp (a v) : (s.memWrite a v).sp = s.sp := rfl
@[simp] theorem memWrite_flags (a v) : (s.memWrite a v).flags = s.flags := rfl
@[simp] theorem memWrite_pending (a v) : (s.memWrite a v).pending = s.pending := rfl
@[simp] theorem memWrite_inService (a v) : (s.memWrite a v).inService = s.inService := rfl
@[simp] theorem memWrite_ram (a v) : (s.memWrite a v).ram = Memory.write .ram s.ram a.toNat v := rfl
@[simp] theorem memWrite_basic (a v) : (s.memWrite a v).basic = s.basic := rfl
@[simp] theorem memWrite_kernal (a v) : (s.memWrite a v).kernal = s.kernal := rfl
@[simp] theorem memWrite_char (a v) : (s.memWrite a v).char = s.char := rfl
@[simp] theorem memWrite_cartLo (a v) : (s.memWrite a v).cartLo = s.cartLo := rfl
@[simp] theorem memWrite_cartHi (a v) : (s.memWrite a v).cartHi = s.cartHi := rfl
@[simp] theorem memWrite_io (a v) : (s.memWrite a v).io = s.io := rfl
@[simp] theorem memWrite_game (a v) : (s.memWrite a v).game = s.game := rfl
@[simp] theorem memWrite_exrom (a v) : (s.memWrite a v).exrom = s.exrom := rfl
@[simp] theorem memWrite_stopOnBreak (a v) : (s.memWrite a v).stopOnBreak = s.stopOnBreak := rfl
@[simp] theorem memWrite_cfg (a v) : (s.memWrite a v).cfg = s.cfg := rfl
@[simp] theorem memWrite_signals (a v) : (s.memWrite a v).signals = s.signals := rfl

/-- A RAM byte after a write (R57). -/
theorem ramByte_memWrite (a b v) : (s.memWrite a v).ramByte b = if b = a then v else s.ramByte b := by
  simp only [ramByte, memWrite_ram, Memory.read_write, BitVec.toNat_inj]

@[simp] theorem ramByte_memWrite_same (a v) : (s.memWrite a v).ramByte a = v := by simp [ramByte_memWrite]

/-- A write outside the port leaves the mode alone (R62). -/
theorem mode_memWrite {a : Word} (h : a ≠ portAddr) (v) : (s.memWrite a v).mode = s.mode := by
  simp only [mode, ramByte_memWrite, if_neg (Ne.symm h), memWrite_game, memWrite_exrom]

/-- A write outside the port leaves every other read alone. -/
theorem memRead_memWrite_other {a b : Word} (hp : a ≠ portAddr) (h : b ≠ a) (v) :
    (s.memWrite a v).memRead b = s.memRead b := by
  simp only [memRead, servedBy, mode_memWrite s hp, ramByte_memWrite, if_neg h, memWrite_basic, memWrite_kernal,
    memWrite_char, memWrite_cartLo, memWrite_cartHi, memWrite_io, memWrite_cfg]

/-- Zone 0 reads RAM in every mode (R69). -/
theorem memRead_z0 {a : Word} (h : zoneOf a = .z0) : s.memRead a = s.ramByte a := by
  simp only [memRead, servedBy, h, chunkFor_z0]

/-- Low addresses are in zone 0 (R51). -/
theorem zoneOf_low {a : Word} (h : a ≤ 0x0FFF) : zoneOf a = .z0 := by rw [zoneOf, if_pos h]

end

end State

end Sys2Proof.Machine
end

