-- ==== Sys2Proof/Laws/Ops.lean ====
section
/-! SUPPORT. One law per shared operation: what it can do, so that a proof cites it instead of unfolding it. -/

namespace Sys2Proof.Machine

/-- The stack byte is at `$0100 + SP` (10_state.md R17). -/
theorem toNat_stackAddr (sp : Byte) : (stackAddr sp).toNat = 0x100 + sp.toNat := by
  simp [stackAddr, stackPage, toNat_wordOf]

theorem stackAddr_inj {p q : Byte} : stackAddr p = stackAddr q ↔ p = q := by
  rw [← BitVec.toNat_inj, toNat_stackAddr, toNat_stackAddr, ← BitVec.toNat_inj]; omega

/-- The stack page lies in zone 0 (20_memory.md R69). -/
theorem zoneOf_stackAddr (sp : Byte) : zoneOf (stackAddr sp) = .z0 := by
  apply State.zoneOf_low
  have := sp.isLt
  rw [BitVec.le_def, toNat_stackAddr]
  show 0x100 + sp.toNat ≤ 0xFFF
  omega

/-- The port is not in the stack page. -/
theorem stackAddr_ne_port (sp : Byte) : stackAddr sp ≠ portAddr := by
  intro h
  have := congrArg BitVec.toNat h
  rw [toNat_stackAddr] at this
  simp [portAddr] at this
  omega

namespace State

variable (s : State)

/-- Fetch advances PC and reads there (40_cycle.md R111). -/
theorem fetch_eq : s.fetch = (s.memRead (s.pc + 1), s.setPc (s.pc + 1)) := rfl

/-- A stack read is a RAM read (20_memory.md R69). -/
@[simp] theorem memRead_stack (sp : Byte) : s.memRead (stackAddr sp) = s.ramByte (stackAddr sp) :=
  s.memRead_z0 (zoneOf_stackAddr sp)

/-- A push is one RAM write and a decrement of SP (R118). -/
theorem push_eq (v : Byte) : s.push v = (s.memWrite (stackAddr s.sp) v).setSp (s.sp - 1) := rfl

@[simp] theorem push_sp (v) : (s.push v).sp = s.sp - 1 := rfl
@[simp] theorem push_pc (v) : (s.push v).pc = s.pc := rfl
@[simp] theorem push_flags (v) : (s.push v).flags = s.flags := rfl

theorem ramByte_push (v : Byte) (a : Word) :
    (s.push v).ramByte a = if a = stackAddr s.sp then v else s.ramByte a := by
  rw [push_eq, ramByte_setSp, ramByte_memWrite]

/-- A push leaves every read outside its slot alone. -/
theorem memRead_push {a : Word} (v : Byte) (h : a ≠ stackAddr s.sp) : (s.push v).memRead a = s.memRead a := by
  rw [push_eq, memRead_setSp, memRead_memWrite_other s (stackAddr_ne_port _) h]

/-- A pull increments SP and reads RAM there (R119). -/
theorem pull_eq : s.pull = (s.ramByte (stackAddr (s.sp + 1)), s.setSp (s.sp + 1)) := by
  simp [pull]

/-- A word pull reads the low byte, then the high byte (R121). -/
theorem pull16_eq : s.pull16 =
    (wordOf (s.ramByte (stackAddr (s.sp + 2))) (s.ramByte (stackAddr (s.sp + 1))), s.setSp (s.sp + 2)) := by
  have h : s.sp + 1#8 + 1#8 = s.sp + 2#8 := by rw [BitVec.add_assoc]; rfl
  simp [pull16, pull_eq, h]

@[simp] theorem push16_sp (v) : (s.push16 v).sp = s.sp - 2 := by
  simp only [push16, push_sp]; rw [BitVec.sub_eq_add_neg, BitVec.sub_eq_add_neg, BitVec.add_assoc, BitVec.sub_eq_add_neg]; rfl

theorem ramByte_push16 (v : Word) (a : Word) :
    (s.push16 v).ramByte a = if a = stackAddr (s.sp - 1) then loByte v else
      if a = stackAddr s.sp then hiByte v else s.ramByte a := by
  simp only [push16, ramByte_push, push_sp]

/-- Every field but PC, SP and RAM keeps its value over the push sequence of an exception entry. -/
theorem takeException_eq : s.takeException =
    (((s.push16 (s.pc + 1)).push s.sr).jumpTo (((s.push16 (s.pc + 1)).push s.sr).load16 irqVector)) := rfl

/-- `setFlagsNZ` writes Z and N and nothing else (R117). -/
theorem setNZ_eq (v : Byte) : s.setNZ v = { s with flags := { s.flags with z := v == 0, n := v.getLsbD 7 } } := rfl

/-- Reading a location (R122). -/
@[simp] theorem readLoc_regA : s.readLoc .regA = s.a := rfl
@[simp] theorem readLoc_imm (v) : s.readLoc (.imm v) = v := rfl
@[simp] theorem readLoc_mem (ea) : s.readLoc (.mem ea) = s.memRead ea := rfl
/-- Writing a location (R122). -/
@[simp] theorem writeLoc_regA (v) : s.writeLoc .regA v = s.setA v := rfl
@[simp] theorem writeLoc_mem (ea v) : s.writeLoc (.mem ea) v = s.memWrite ea v := rfl

end State

end Sys2Proof.Machine
end

