-- ==== Sys2Proof/Laws/Exception.lean ====
section
/-! SUPPORT. One law per operation of exception entry and return: everything it can do. -/

namespace Sys2Proof.Machine.State

variable (s : State)

/-- A push changes RAM and SP and nothing else. -/
theorem push_next (v : Byte) : s.push v = { s with ram := (s.push v).ram, sp := s.sp - 1 } := rfl

/-- A word push changes RAM and SP and nothing else. -/
theorem push16_eq (w : Word) : s.push16 w = { s with ram := (s.push16 w).ram, sp := s.sp - 2 } := by
  rw [← s.push16_sp w]; rfl

/-- A word push leaves every read outside its two slots alone. -/
theorem memRead_push16 (w : Word) {a : Word} (h0 : a ≠ stackAddr s.sp) (h1 : a ≠ stackAddr (s.sp - 1)) :
    (s.push16 w).memRead a = s.memRead a := by
  rw [push16, memRead_push _ _ h1, memRead_push _ _ h0]

/-- A word read outside the stack page does not see a push. -/
theorem load16_push (v : Byte) {a : Word} (h0 : a ≠ stackAddr s.sp) (h1 : a + 1 ≠ stackAddr s.sp) :
    (s.push v).load16 a = s.load16 a := by
  simp only [load16, memRead_push _ _ h0, memRead_push _ _ h1]

/-- The IRQ vector lies outside the stack page. -/
theorem irqVector_ne_stackAddr (p : Byte) : irqVector ≠ stackAddr p ∧ irqVector + 1 ≠ stackAddr p := by
  revert p; decide

/-- Taking an exception: the three pushes of RAM, SP down by three, PC one less than the vector's word as it stood
before the pushes, and nothing else. -/
theorem takeException_next : s.takeException =
    { s with ram := s.takeException.ram, sp := s.sp - 3, pc := s.load16 irqVector - 1 } := by
  have hv : ((s.push16 (s.pc + 1)).push s.sr).load16 irqVector = s.load16 irqVector := by
    rw [push16]
    iterate 3 rw [load16_push _ _ (irqVector_ne_stackAddr _).1 (irqVector_ne_stackAddr _).2]
  have hu : (s.push16 (s.pc + 1)).push s.sr =
      { s with ram := ((s.push16 (s.pc + 1)).push s.sr).ram, sp := s.sp - 3 } := by
    have hs : ∀ x : Byte, x - 2 - 1 = x - 3 := by decide
    rw [push_next, push16_sp, hs, push16_eq]
  rw [takeException_eq, jumpTo, hv, setPc_ram, setPc, hu]

/-- The RAM an exception entry leaves: the return address, high byte first, then the status byte, from SP down. -/
theorem ramByte_takeException (a : Word) : s.takeException.ramByte a =
    if a = stackAddr (s.sp - 2) then s.sr else if a = stackAddr (s.sp - 1) then loByte (s.pc + 1) else
      if a = stackAddr s.sp then hiByte (s.pc + 1) else s.ramByte a := by
  rw [takeException_eq]
  show ((s.push16 (s.pc + 1)).push s.sr).ramByte a = _
  rw [ramByte_push, push16_sp, ramByte_push16]

/-- An exception entry leaves every read outside its three slots alone. -/
theorem memRead_takeException {a : Word} (h0 : a ≠ stackAddr s.sp) (h1 : a ≠ stackAddr (s.sp - 1))
    (h2 : a ≠ stackAddr (s.sp - 2)) : s.takeException.memRead a = s.memRead a := by
  rw [takeException_eq]
  show ((s.push16 (s.pc + 1)).push s.sr).memRead a = _
  rw [memRead_push _ _ (by rw [push16_sp]; exact h2), memRead_push16 _ _ h0 h1]

/-- The interrupt entry beside the shared sequence: one request consumed, the in-service flag set, I set or kept. -/
theorem enterInterrupt_next : s.enterInterrupt = { s.takeException with
    pending := s.pending - 1, inService := true
    flags := { s.flags with i := s.cfg.irqEntrySetsI || s.flags.i } } := by
  have hf : (s.setPending (s.pending - 1)).takeException = { s.takeException with pending := s.pending - 1 } := rfl
  rw [enterInterrupt, hf, takeException_next]
  cases h : s.cfg.irqEntrySetsI <;> simp [setInService, setFlags, h]

/-- BRK's entry beside the shared sequence: I forced to 1. -/
theorem enterBreak_next : s.enterBreak = { s.takeException with flags := { s.flags with i := true } } := by
  rw [enterBreak, takeException_next]; rfl

/-- The return: SP up by three, the flags from the first byte pulled, PC one less than the word pulled after it. -/
theorem returnFromException_next : s.returnFromException =
    { s with sp := s.sp + 3, flags := Flags.ofSr (s.ramByte (stackAddr (s.sp + 1)))
             pc := wordOf (s.ramByte (stackAddr (s.sp + 3))) (s.ramByte (stackAddr (s.sp + 2))) - 1 } := by
  have h2 : ∀ x : Byte, x + 1 + 1 = x + 2 := by decide
  have h3 : ∀ x : Byte, x + 1 + 2 = x + 3 := by decide
  rw [returnFromException, pull_eq, pull16_eq]
  simp only [← h2, ← h3]
  rfl

end Sys2Proof.Machine.State

namespace Sys2Proof.Machine

/-- BRK on the stop path. -/
theorem brk_stop {s : State} (h : s.stopOnBreak = true) : brk s =
    { s with pc := s.pc + 1, flags := { s.flags with b := true }, signals := s.signals ++ [.breakStop] } := by
  have h' : ((s.setFlags { s.flags with b := true }).fetch.2).stopOnBreak = true := h
  rw [brk, if_pos h']; rfl

/-- BRK off the stop path: the entry from the state with B set and PC at the padding byte. -/
theorem brk_enter {s : State} (h : s.stopOnBreak = false) : brk s =
    State.enterBreak { s with pc := s.pc + 1, flags := { s.flags with b := true } } := by
  have h' : ¬ ((s.setFlags { s.flags with b := true }).fetch.2).stopOnBreak = true := by
    show ¬ s.stopOnBreak = true; simp [h]
  rw [brk, if_neg h']; rfl

end Sys2Proof.Machine
end

