-- ==== Sys2Proof/Laws/Canonical.lean ====
section
/-! SUPPORT. Every operation that writes a byte array keeps its canonical form. -/

namespace Sys2Proof.Machine.State

variable {s : State}

/-- A write keeps RAM in canonical form (20_memory.md R57). -/
theorem wf_memWrite (h : Memory.wf .ram s.ram = true) (a : Word) (v : Byte) :
    Memory.wf .ram (s.memWrite a v).ram = true := Memory.wf_write a.isLt h

/-- Writing a location keeps RAM in canonical form. -/
theorem wf_writeLoc (h : Memory.wf .ram s.ram = true) (l : Loc) (v : Byte) :
    Memory.wf .ram (s.writeLoc l v).ram = true := by
  cases l with
  | mem ea => exact wf_memWrite h ea v
  | regA => exact h
  | imm _ => exact h

/-- A push keeps RAM in canonical form. -/
theorem wf_push (h : Memory.wf .ram s.ram = true) (v : Byte) : Memory.wf .ram (s.push v).ram = true := by
  rw [push_eq, setSp_ram]; exact wf_memWrite h _ v

/-- A word push keeps RAM in canonical form. -/
theorem wf_push16 (h : Memory.wf .ram s.ram = true) (w : Word) : Memory.wf .ram (s.push16 w).ram = true :=
  wf_push (wf_push h _) _

/-- Taking an exception keeps RAM in canonical form. -/
theorem wf_takeException (h : Memory.wf .ram s.ram = true) : Memory.wf .ram s.takeException.ram = true := by
  rw [takeException_eq, jumpTo, setPc_ram]; exact wf_push (wf_push16 h _) _

/-- A device's write keeps the I/O chunk in canonical form (10_state.md R38). -/
theorem wf_deviceWrite (h : Memory.wf .io s.io = true) (off : BitVec 12) (v : Byte) :
    Memory.wf .io (s.deviceWrite off v).io = true := Memory.wf_write off.isLt h

/-- A loaded ROM is in canonical form, whatever the buffer's length (10_state.md R47). -/
theorem wf_loadRom (k : ChunkKind) (bytes : List Byte) : Memory.wf k (Memory.image k 0 (bytes.take k.size)) = true :=
  Memory.wf_image (by simp)

end Sys2Proof.Machine.State
end

