-- ==== Sys2Proof/Laws/Decode.lean ====
section
/-! SUPPORT. The opcode table row by row: what each row makes is encoded by that row's opcode and operand bytes. -/

namespace Sys2Proof

/-- What a row of the opcode table promises: the instruction it makes is encoded as the row's opcode and operands, and is
well-formed when its displacement fits (30_encoding.md R81, R99). -/
def RowMakesItsEncoding (e : Byte × Shape) : Prop :=
  match e.2 with
  | .bare i => encode i = [e.1] ∧ i.wellFormed = true
  | .byte f => ∀ v, encode (f v) = [e.1, v] ∧ (f v).wellFormed = true
  | .disp f => ∀ d, encode (f d) = [e.1, dispByte d] ∧ (f d).wellFormed = displacementFits d
  | .word f => ∀ w, encode (f w) = e.1 :: wordBytes w ∧ (f w).wellFormed = true

/-- Every row keeps the promise. -/
theorem opcodeTable_makes_encodings : ∀ e ∈ opcodeTable, RowMakesItsEncoding e := by
  simp only [opcodeTable, List.forall_mem_append]
  refine ⟨⟨⟨⟨⟨⟨⟨⟨⟨⟨⟨⟨⟨⟨⟨?_, ?_⟩, ?_⟩, ?_⟩, ?_⟩, ?_⟩, ?_⟩, ?_⟩, ?_⟩, ?_⟩, ?_⟩, ?_⟩, ?_⟩, ?_⟩, ?_⟩, ?_⟩ <;>
  · repeat refine List.forall_mem_cons.2 ⟨by first | exact fun _ => ⟨rfl, rfl⟩ | exact ⟨rfl, rfl⟩, ?_⟩
    exact fun _ h => absurd h List.not_mem_nil

/-- A byte found by looking up the table has a row there. -/
theorem lookup_row {α β : Type} [BEq α] [LawfulBEq α] {a : α} {b : β} {l : List (α × β)} (h : l.lookup a = some b) :
    (a, b) ∈ l := by
  induction l with
  | nil => simp at h
  | cons e l ih =>
    obtain ⟨c, d⟩ := e
    rw [List.lookup_cons] at h
    split at h
    · next hc => simp only [beq_iff_eq] at hc; simp_all
    · exact List.mem_cons_of_mem _ (ih h)

/-- Each opcode byte has at most one row (30_encoding.md R98). -/
theorem opcodeTable_nodup : (opcodeTable.map Prod.fst).Nodup := by decide +kernel

/-- A byte with no row is refused by name, whatever follows it (R109). -/
theorem decode_unlisted {op : Byte} (h : opcodeTable.lookup op = none) (l : List Byte) :
    decode (op :: l) = .error (.illegalOpcode op) := by
  simp only [decode, h]

/-- A window of three bytes whose first has a row decodes: three bytes are enough for every row (R80, R104). -/
theorem decode_listed {op : Byte} {sh : Shape} (h : opcodeTable.lookup op = some sh) (b1 b2 : Byte) (l : List Byte) :
    ∃ i r, decode (op :: b1 :: b2 :: l) = .ok (i, r) := by
  simp only [decode, h]
  cases sh <;> exact ⟨_, _, rfl⟩

@[simp] theorem dispByte_sext8 (v : Byte) : dispByte (sext8 v) = v := by simp [dispByte, sext8]

/-- A displacement read from a byte fits. -/
theorem displacementFits_sext8 (v : Byte) : displacementFits (sext8 v) = true := by revert v; decide

end Sys2Proof
end

