-- ==== Sys2Proof/Laws/Meanings.lean ====
section
/-! SUPPORT. One law per operation the meanings share: the fields it writes, and no other. -/

namespace Sys2Proof.Machine

variable (s : State) (o : Operand)

/-- Writing a location writes A or RAM (40_cycle.md R122). -/
theorem State.writeLoc_next (l : Loc) (v : Byte) : s.writeLoc l v =
    { s with a := (s.writeLoc l v).a, ram := (s.writeLoc l v).ram } := by
  cases l <;> rfl

theorem lda_next : lda o s = { s with a := s.operand o, flags := s.flags.setNZ (s.operand o) } := rfl
theorem ldx_next : ldx o s = { s with x := s.operand o, flags := s.flags.setNZ (s.operand o) } := rfl
theorem ldy_next : ldy o s = { s with y := s.operand o, flags := s.flags.setNZ (s.operand o) } := rfl

theorem andA_next : andA o s =
    { s with a := s.a &&& s.operand o, flags := s.flags.setNZ (s.a &&& s.operand o) } := rfl
theorem oraA_next : oraA o s =
    { s with a := s.a ||| s.operand o, flags := s.flags.setNZ (s.a ||| s.operand o) } := rfl
theorem eorA_next : eorA o s =
    { s with a := s.a ^^^ s.operand o, flags := s.flags.setNZ (s.a ^^^ s.operand o) } := rfl

/-- The flags ADC may write are C, Z, V and N (43_arith_logic.md R144). -/
theorem addWithCarry_flags (rule : DecimalVRule) (f : Flags) (a m : Byte) :
    (addWithCarry rule f a m).2 = { f.setNZ (addWithCarry rule f a m).1 with
      c := (addWithCarry rule f a m).2.c, v := (addWithCarry rule f a m).2.v } := by
  unfold addWithCarry; split <;> rfl

/-- The flags SBC may write are C, Z, V and N (43_arith_logic.md R145). -/
theorem subWithBorrow_flags (rule : DecimalVRule) (f : Flags) (a m : Byte) :
    (subWithBorrow rule f a m).2 = { f.setNZ (subWithBorrow rule f a m).1 with
      c := (subWithBorrow rule f a m).2.c, v := (subWithBorrow rule f a m).2.v } := by
  unfold subWithBorrow; split <;> rfl

theorem adc_next : adc o s =
    { s with a := (addWithCarry s.cfg.decimalVRule s.flags s.a (s.operand o)).1
             flags := (addWithCarry s.cfg.decimalVRule s.flags s.a (s.operand o)).2 } := rfl
theorem sbc_next : sbc o s =
    { s with a := (subWithBorrow s.cfg.decimalVRule s.flags s.a (s.operand o)).1
             flags := (subWithBorrow s.cfg.decimalVRule s.flags s.a (s.operand o)).2 } := rfl

/-- A read-modify-write form writes its location and the flags (44_shift_rotate.md). -/
theorem modify_next (f : Flags → Byte → Byte × Flags) : Machine.modify f o s =
    { s with a := (s.writeLoc (s.resolve o) (f s.flags (s.operand o)).1).a
             ram := (s.writeLoc (s.resolve o) (f s.flags (s.operand o)).1).ram
             flags := (f s.flags (s.operand o)).2 } := by
  rw [Machine.modify, State.writeLoc_next]; rfl

theorem pla_next : pla s =
    { s with a := s.ramByte (stackAddr (s.sp + 1)), sp := s.sp + 1
             flags := s.flags.setNZ (s.ramByte (stackAddr (s.sp + 1))) } := by
  rw [pla, State.pull_eq]; rfl
theorem plp_next : plp s = { s with sp := s.sp + 1, flags := Flags.ofSr (s.ramByte (stackAddr (s.sp + 1))) } := by
  rw [plp, State.pull_eq]; rfl

theorem jsr_next (t : Word) : jsr t s = { s with ram := (s.push16 s.pc).ram, sp := s.sp - 2, pc := t - 1 } := by
  rw [jsr, State.jumpTo, State.push16_eq]; rfl
theorem rts_next : rts s =
    { s with sp := s.sp + 2
             pc := wordOf (s.ramByte (stackAddr (s.sp + 2))) (s.ramByte (stackAddr (s.sp + 1))) } := by
  rw [rts, State.pull16_eq]; rfl

/-- A branch moves PC or nothing (45_control.md R166 to R173). -/
theorem branch_next (c : Bool) (t : Word) : branch c t s = { s with pc := if c then t - 1 else s.pc } := by
  cases c <;> rfl

end Sys2Proof.Machine
end

