-- ==== Sys2Proof/Laws/Exec.lean ====
section
/-! SUPPORT. What any instruction and any interrupt check can do, said once. -/

namespace Sys2Proof.Machine

/-- Every instruction answers a next state, and it writes at most PC, A, X, Y, SP, the flags, RAM and the signals. -/
theorem exec_next (i : Instr) (s : State) : ∃ t, exec i s = .next t ∧
    t = { s with pc := t.pc, a := t.a, x := t.x, y := t.y, sp := t.sp, flags := t.flags, ram := t.ram
                 signals := t.signals } := by
  cases i with
  | brk p =>
    refine ⟨_, rfl, ?_⟩
    cases h : s.stopOnBreak
    · rw [brk_enter h, State.enterBreak_next, State.takeException_next]; simp [h]
    · rw [brk_stop h]; simp [h]
  | rti => refine ⟨_, rfl, ?_⟩; rw [State.returnFromException_next]
  | bcc d | bcs d | beq d | bmi d | bne d | bpl d | bvc d | bvs d =>
    refine ⟨_, rfl, ?_⟩; rw [branch_next]
  | _ => exact ⟨_, rfl, rfl⟩

/-- What a read through the mode gives after an instruction is settled by the RAM it leaves. -/
theorem exec_memRead {i : Instr} {s t : State} (h : exec i s = .next t) (addr : Word) :
    t.memRead addr = (s.setRam t.ram).memRead addr := by
  obtain ⟨t', ht, e⟩ := exec_next i s
  rw [h] at ht
  cases ht
  rw [e]; exact State.memRead_congr rfl rfl rfl rfl rfl rfl rfl rfl rfl rfl addr

namespace State

/-- The interrupt check writes at most PC, SP, the flags, RAM, the pending count and the in-service flag. -/
theorem checkIrq_next (s : State) : s.checkIrq =
    { s with pc := s.checkIrq.pc, sp := s.checkIrq.sp, flags := s.checkIrq.flags, ram := s.checkIrq.ram
             pending := s.checkIrq.pending, inService := s.checkIrq.inService } := by
  unfold checkIrq
  split
  · rw [enterInterrupt_next, takeException_next]
  · rfl

/-- The RTI-flag step writes at most the in-service flag (40_cycle.md R114). -/
theorem rtiFlagStep_next (s : State) (op : Byte) : s.rtiFlagStep op =
    { s with inService := if op = 0x40 then false else s.inService } := by
  unfold rtiFlagStep; split <;> rfl

end State

/-- A step is an instruction, or the illegal path, and then the end of the step. -/
theorem step_next (s : State) : ∃ u, step s = .next (u.endOfStep (s.memRead (s.pc + 1))) ∧
    ((∃ i rest, decode s.fetchBytes = .ok (i, rest) ∧ exec i ((s.setSignals []).afterOperands i) = .next u) ∨
     (∃ e, decode s.fetchBytes = .error e) ∧ u = (s.setSignals []).illegalStep) := by
  have hf : (s.setSignals []).fetchBytes = s.fetchBytes := rfl
  unfold step
  dsimp only
  rw [hf]
  split
  · next i r hd =>
    obtain ⟨u, hu, _⟩ := exec_next i ((s.setSignals []).afterOperands i)
    rw [hu]
    exact ⟨u, rfl, .inl ⟨i, r, hd, hu⟩⟩
  · next e hd => exact ⟨(s.setSignals []).illegalStep, rfl, .inr ⟨⟨e, hd⟩, rfl⟩⟩

end Sys2Proof.Machine
end

