-- ==== Sys2Proof/Tests/Slice0.lean ====
section
/-! SUPPORT. The model's own tests: decoding of words written out from the encodings, ill-formed terms refused, one step
on small states with results from spec/95_test_vectors.md (V<n>, W<n>) or from the rule named, and a witness for the
hypotheses of every statement that has some. -/

namespace Sys2Proof.Tests

open Sys2Proof.Machine Sys2Proof.Claims

/-! Helpers. -/

/-- The start state S0 of spec/95_test_vectors.md: PC `$BFFF` and all flags clear, else as after reset. -/
def s0 : State := { State.reset with
  pc := 0xBFFF
  flags := { c := false, z := false, i := false, d := false, b := false, v := false, n := false } }

/-- RAM bytes from address `a` upward. -/
def ram (a : Word) : List Byte → State → State
  | [], s => s
  | v :: l, s => ram (a + 1) l (s.poke a v)

/-- The state a step leaves. -/
def stepped (s : State) : State :=
  match step s with
  | .next t => t
  | .fault _ => s
  | .refused _ => s

/-- The state after one step with `code` at `$C000`, from a state whose PC is `$BFFF`. -/
def after (code : List Byte) (s : State) : State := stepped (ram 0xC000 code s)

/-- The flags in the order N V B D I Z C. -/
def nvbdizc (s : State) : List Bool :=
  [s.flags.n, s.flags.v, s.flags.b, s.flags.d, s.flags.i, s.flags.z, s.flags.c]

/-- The flags N V Z C, as the tables of add and subtract list them. -/
def nvzc (s : State) : List Bool := [s.flags.n, s.flags.v, s.flags.z, s.flags.c]

/-- S0 with all flags set. -/
def allFlags (s : State) : State :=
  { s with flags := { c := true, z := true, i := true, d := true, b := true, v := true, n := true } }

/-- S0 under the parameter `DECIMAL_V_RULE = Unchanged`. -/
def unchangedV : State := { s0 with cfg := { Config.standard with decimalVRule := .unchanged } }

/-- The Kernal ROM with the word `w` at its IRQ vector, `$FFFE` (offset `$1FFE`). -/
def vectored (lo hi : Byte) (s : State) : State :=
  { s with kernal := Memory.write .kernal (Memory.write .kernal s.kernal 0x1FFE lo) 0x1FFF hi }

/-- The bytes decode to the instruction with nothing left over, and the instruction encodes to the bytes. -/
def decodesTo (p : List Byte × Instr) : Bool :=
  (match decode p.1 with
   | .ok (i, rest) => i == p.2 && rest.isEmpty
   | .error _ => false) && encode p.2 == p.1 && p.2.wellFormed

/-! Decoding: every row of the opcode table. -/

/-- The rows of LDA, LDX, LDY, STA, STX, STY: each word is the
row's encoding in spec/opcode_table.json, written out bit by bit. -/
def loadStoreWords : List (List Byte × Instr) :=
  [([0b10100001, 0x81], .ldaIndX 0x81), ([0b10100101, 0x82], .ldaZp 0x82), ([0b10101001, 0x83], .ldaImm 0x83),
   ([0b10101101, 0x24, 0xC3], .ldaAbs 0xC324), ([0b10110001, 0x85], .ldaIndY 0x85),
   ([0b10110101, 0x86], .ldaZpX 0x86), ([0b10111001, 0x27, 0xC6], .ldaAbsY 0xC627),
   ([0b10111101, 0x28, 0xC7], .ldaAbsX 0xC728), ([0b10100010, 0x89], .ldxImm 0x89),
   ([0b10100110, 0x8A], .ldxZp 0x8A), ([0b10101110, 0x2B, 0xCA], .ldxAbs 0xCA2B),
   ([0b10110110, 0x8C], .ldxZpY 0x8C), ([0b10111110, 0x2D, 0xCC], .ldxAbsY 0xCC2D),
   ([0b10100000, 0x8E], .ldyImm 0x8E), ([0b10100100, 0x8F], .ldyZp 0x8F),
   ([0b10101100, 0x30, 0xCF], .ldyAbs 0xCF30), ([0b10110100, 0x91], .ldyZpX 0x91),
   ([0b10111100, 0x32, 0xC1], .ldyAbsX 0xC132), ([0b10000001, 0x93], .staIndX 0x93),
   ([0b10000101, 0x94], .staZp 0x94), ([0b10001101, 0x35, 0xC4], .staAbs 0xC435),
   ([0b10010001, 0x96], .staIndY 0x96), ([0b10010101, 0x97], .staZpX 0x97),
   ([0b10011001, 0x38, 0xC7], .staAbsY 0xC738), ([0b10011101, 0x39, 0xC8], .staAbsX 0xC839),
   ([0b10000110, 0x9A], .stxZp 0x9A), ([0b10001110, 0x3B, 0xCA], .stxAbs 0xCA3B),
   ([0b10010110, 0x9C], .stxZpY 0x9C), ([0b10000100, 0x9D], .styZp 0x9D),
   ([0b10001100, 0x3E, 0xCD], .styAbs 0xCD3E), ([0b10010100, 0x9F], .styZpX 0x9F)]

theorem test_decode_loadStore : loadStoreWords.all decodesTo = true := by decide

/-- The rows of TAX, TAY, TXA, TYA, TSX, TXS, PHA, PHP, PLA, PLP: each word is the
row's encoding in spec/opcode_table.json, written out bit by bit. -/
def transferStackWords : List (List Byte × Instr) :=
  [([0b10101010], .tax), ([0b10101000], .tay), ([0b10001010], .txa), ([0b10011000], .tya), ([0b10111010], .tsx),
   ([0b10011010], .txs), ([0b01001000], .pha), ([0b00001000], .php), ([0b01101000], .pla), ([0b00101000], .plp)]

theorem test_decode_transferStack : transferStackWords.all decodesTo = true := by decide

/-- The rows of ADC, SBC, AND, ORA, EOR, BIT, CMP, CPX, CPY, INC, DEC, INX, INY, DEX, DEY: each word is the
row's encoding in spec/opcode_table.json, written out bit by bit. -/
def arithWords : List (List Byte × Instr) :=
  [([0b01100001, 0x81], .adcIndX 0x81), ([0b01100101, 0x82], .adcZp 0x82), ([0b01101001, 0x83], .adcImm 0x83),
   ([0b01101101, 0x24, 0xC3], .adcAbs 0xC324), ([0b01110001, 0x85], .adcIndY 0x85),
   ([0b01110101, 0x86], .adcZpX 0x86), ([0b01111001, 0x27, 0xC6], .adcAbsY 0xC627),
   ([0b01111101, 0x28, 0xC7], .adcAbsX 0xC728), ([0b11100001, 0x89], .sbcIndX 0x89),
   ([0b11100101, 0x8A], .sbcZp 0x8A), ([0b11101001, 0x8B], .sbcImm 0x8B),
   ([0b11101101, 0x2C, 0xCB], .sbcAbs 0xCB2C), ([0b11110001, 0x8D], .sbcIndY 0x8D),
   ([0b11110101, 0x8E], .sbcZpX 0x8E), ([0b11111001, 0x2F, 0xCE], .sbcAbsY 0xCE2F),
   ([0b11111101, 0x30, 0xCF], .sbcAbsX 0xCF30), ([0b00100001, 0x91], .andIndX 0x91),
   ([0b00100101, 0x92], .andZp 0x92), ([0b00101001, 0x93], .andImm 0x93),
   ([0b00101101, 0x34, 0xC3], .andAbs 0xC334), ([0b00110001, 0x95], .andIndY 0x95),
   ([0b00110101, 0x96], .andZpX 0x96), ([0b00111001, 0x37, 0xC6], .andAbsY 0xC637),
   ([0b00111101, 0x38, 0xC7], .andAbsX 0xC738), ([0b00000001, 0x99], .oraIndX 0x99),
   ([0b00000101, 0x9A], .oraZp 0x9A), ([0b00001001, 0x9B], .oraImm 0x9B),
   ([0b00001101, 0x3C, 0xCB], .oraAbs 0xCB3C), ([0b00010001, 0x9D], .oraIndY 0x9D),
   ([0b00010101, 0x9E], .oraZpX 0x9E), ([0b00011001, 0x3F, 0xCE], .oraAbsY 0xCE3F),
   ([0b00011101, 0x40, 0xCF], .oraAbsX 0xCF40), ([0b01000001, 0xA1], .eorIndX 0xA1),
   ([0b01000101, 0xA2], .eorZp 0xA2), ([0b01001001, 0xA3], .eorImm 0xA3),
   ([0b01001101, 0x44, 0xC3], .eorAbs 0xC344), ([0b01010001, 0xA5], .eorIndY 0xA5),
   ([0b01010101, 0xA6], .eorZpX 0xA6), ([0b01011001, 0x47, 0xC6], .eorAbsY 0xC647),
   ([0b01011101, 0x48, 0xC7], .eorAbsX 0xC748), ([0b00100100, 0xA9], .bitZp 0xA9),
   ([0b00101100, 0x4A, 0xC9], .bitAbs 0xC94A), ([0b11000001, 0xAB], .cmpIndX 0xAB),
   ([0b11000101, 0xAC], .cmpZp 0xAC), ([0b11001001, 0xAD], .cmpImm 0xAD),
   ([0b11001101, 0x4E, 0xCD], .cmpAbs 0xCD4E), ([0b11010001, 0xAF], .cmpIndY 0xAF),
   ([0b11010101, 0xB0], .cmpZpX 0xB0), ([0b11011001, 0x51, 0xC0], .cmpAbsY 0xC051),
   ([0b11011101, 0x52, 0xC1], .cmpAbsX 0xC152), ([0b11100000, 0xB3], .cpxImm 0xB3),
   ([0b11100100, 0xB4], .cpxZp 0xB4), ([0b11101100, 0x55, 0xC4], .cpxAbs 0xC455),
   ([0b11000000, 0xB6], .cpyImm 0xB6), ([0b11000100, 0xB7], .cpyZp 0xB7),
   ([0b11001100, 0x58, 0xC7], .cpyAbs 0xC758), ([0b11100110, 0xB9], .incZp 0xB9),
   ([0b11101110, 0x5A, 0xC9], .incAbs 0xC95A), ([0b11110110, 0xBB], .incZpX 0xBB),
   ([0b11111110, 0x5C, 0xCB], .incAbsX 0xCB5C), ([0b11000110, 0xBD], .decZp 0xBD),
   ([0b11001110, 0x5E, 0xCD], .decAbs 0xCD5E), ([0b11010110, 0xBF], .decZpX 0xBF),
   ([0b11011110, 0x60, 0xCF], .decAbsX 0xCF60), ([0b11101000], .inx), ([0b11001000], .iny),
   ([0b11001010], .dex), ([0b10001000], .dey)]

theorem test_decode_arith : arithWords.all decodesTo = true := by decide

/-- The rows of ASL, LSR, ROL, ROR: each word is the
row's encoding in spec/opcode_table.json, written out bit by bit. -/
def shiftWords : List (List Byte × Instr) :=
  [([0b00000110, 0x81], .aslZp 0x81), ([0b00001010], .aslAcc), ([0b00001110, 0x23, 0xC2], .aslAbs 0xC223),
   ([0b00010110, 0x84], .aslZpX 0x84), ([0b00011110, 0x25, 0xC4], .aslAbsX 0xC425),
   ([0b01000110, 0x86], .lsrZp 0x86), ([0b01001010], .lsrAcc), ([0b01001110, 0x28, 0xC7], .lsrAbs 0xC728),
   ([0b01010110, 0x89], .lsrZpX 0x89), ([0b01011110, 0x2A, 0xC9], .lsrAbsX 0xC92A),
   ([0b00100110, 0x8B], .rolZp 0x8B), ([0b00101010], .rolAcc), ([0b00101110, 0x2D, 0xCC], .rolAbs 0xCC2D),
   ([0b00110110, 0x8E], .rolZpX 0x8E), ([0b00111110, 0x2F, 0xCE], .rolAbsX 0xCE2F),
   ([0b01100110, 0x90], .rorZp 0x90), ([0b01101010], .rorAcc), ([0b01101110, 0x32, 0xC1], .rorAbs 0xC132),
   ([0b01110110, 0x93], .rorZpX 0x93), ([0b01111110, 0x34, 0xC3], .rorAbsX 0xC334)]

theorem test_decode_shift : shiftWords.all decodesTo = true := by decide

/-- The rows of JMP, JSR, RTS, BCC, BCS, BEQ, BMI, BNE, BPL, BVC, BVS: each word is the
row's encoding in spec/opcode_table.json, written out bit by bit. -/
def controlWords : List (List Byte × Instr) :=
  [([0b01001100, 0x21, 0xC0], .jmpAbs 0xC021), ([0b01101100, 0x22, 0xC1], .jmpInd 0xC122),
   ([0b00100000, 0x23, 0xC2], .jsrAbs 0xC223), ([0b01100000], .rts), ([0b10010000, 0x80], .bcc (-128)),
   ([0b10110000, 0x81], .bcs (-127)), ([0b11110000, 0x82], .beq (-126)), ([0b00110000, 0x83], .bmi (-125)),
   ([0b11010000, 0x84], .bne (-124)), ([0b00010000, 0x85], .bpl (-123)), ([0b01010000, 0x86], .bvc (-122)),
   ([0b01110000, 0x87], .bvs (-121))]

theorem test_decode_control : controlWords.all decodesTo = true := by decide

/-- The rows of CLC, CLD, CLI, CLV, SEC, SED, SEI, NOP, BRK, RTI: each word is the
row's encoding in spec/opcode_table.json, written out bit by bit. -/
def systemWords : List (List Byte × Instr) :=
  [([0b00011000], .clc), ([0b11011000], .cld), ([0b01011000], .cli), ([0b10111000], .clv), ([0b00111000], .sec),
   ([0b11111000], .sed), ([0b01111000], .sei), ([0b11101010], .nop), ([0b00000000, 0x89], .brk 0x89),
   ([0b01000000], .rti)]

theorem test_decode_system : systemWords.all decodesTo = true := by decide

/-- Every one of the 256 opcode bytes is a row or an illegal byte (30_encoding.md R100, R101), and 151 are rows. -/
theorem test_decode_row_count : opcodeTable.length = 151 ∧ illegalBytes.length = 105 :=
  ⟨rfl, rfl⟩

/-- A cut-off instruction is refused. -/
theorem test_decode_truncated : decode [0xAD, 0x00] = .error .truncated ∧ decode [] = .error .truncated := by decide

/-- The host's numbering: a later byte's bits count on from the first byte's. -/
theorem test_decodeTableWord : decodeTableWord 24 0x12346E = some (.rorAbs 0x1234) ∧
    decodeTableWord 8 0xAA = some .tax ∧ decodeTableWord 8 0x00 = some (.brk 0) ∧ decodeTableWord 8 0x02 = none := by
  decide

/-! WellFormed: the smoke test. The type of instructions leaves one condition, the displacement's range, and each of the
eight branches checks it at both ends (30_encoding.md R97, R106). -/

theorem test_wellFormed_refuses : [Instr.bcc 128, .bcs 128, .beq 128, .bmi 128, .bne 128, .bpl 128, .bvc 128, .bvs 128,
    .bcc (-129), .bcs (-129), .beq (-129), .bmi (-129), .bne (-129), .bpl (-129), .bvc (-129), .bvs (-129)].all
      (fun i => !i.wellFormed) = true := by decide

theorem test_wellFormed_accepts : [Instr.bcc 127, .bcs (-128), .beq 0, .bmi (-1), .ldaImm 0xFF, .jmpAbs 0xFFFF,
    .brk 0xFF].all (fun i => i.wellFormed) = true := by decide

/-! Reset and the host's placing of an instruction. -/

/-- `State.reset` is the spec's reset for the launch of log entries 2 to 6. -/
theorem reset_is_standard_launch : State.reset = resetFrom Launch.standard := by decide

/-- W1: the fixed `RESET_ENTRY` `$C000` gives PC `$BFFF`. -/
theorem test_reset_fixed_entry :
    (resetFrom { Launch.standard with cfg := { Config.standard with resetEntry := some 0xC000 } }).pc = 0xBFFF := by
  decide

/-- R206: the platform reading takes the word at `$FFFC` through the mode. -/
theorem test_reset_platform_entry :
    (resetFrom { Launch.standard with kernal := [(0x1FFC, 0x34), (0x1FFD, 0x12)] }).pc = 0x1233 := by decide

/-- An instruction placed where the step after reset fetches runs, also where its bytes cover the port (`$0001`). -/
theorem test_withFetchWord_runs : (stepped (State.reset.withFetchWord 16 0x42A9)).a = 0x42 ∧
    (stepped (State.reset.withFetchWord 24 0x12344C)).pc = 0x1233 := by decide

/-- From a state that would fetch from an Open zone the placed instruction still runs. -/
theorem test_withFetchWord_open :
    (stepped ({ s0 with pc := 0x1FFF, game := false }.withFetchWord 16 0x42A9)).a = 0x42 := by decide

/-! One step per instruction, in the table's order. -/

/-- V1. -/
theorem test_lda_immediate :
    (fun t => (t.a, t.flags.z, t.flags.n, t.pc)) (after [0xA9, 0x00] (s0)) = (0x00, true, false, 0xC001) := by decide

/-- V3. -/
theorem test_lda_absolute_reads_the_overlay :
    (fun t => (t.a, t.flags.n, t.pc))
      (after [0xAD, 0x00, 0xA0] (ram 0xA000 [0x11] { s0 with basic := [(0, 0x94)] })) =
      (0x94, true, 0xC002) := by decide

/-- V5. -/
theorem test_lda_zeroPageX_wraps :
    (fun t => t.a) (after [0xB5, 0xFF] (ram 0x0F [0x5A] { s0 with x := 0x10 })) = 0x5A := by decide

/-- V6. -/
theorem test_lda_absoluteX_wraps :
    (fun t => t.a) (after [0xBD, 0xFF, 0xFF] (ram 0x0F [0x5A] { s0 with x := 0x10 })) = 0x5A := by decide

/-- V8. -/
theorem test_lda_indirectX :
    (fun t => (t.a, t.flags.n)) (after [0xA1, 0x20] (ram 0x24 [0x00, 0x30] (ram 0x3000 [0x99] { s0 with x := 4 }))) =
      (0x99, true) := by decide

/-- V11. -/
theorem test_lda_indirectX_pointer_wraps :
    (fun t => t.a) (after [0xA1, 0xFF] (ram 0x3700 [0x42] { s0 with x := 1 })) = 0x42 := by decide

/-- V9. -/
theorem test_lda_indirectY_crosses_a_page :
    (fun t => t.a) (after [0xB1, 0x20] (ram 0x20 [0xF8, 0x30] (ram 0x3108 [0x77] { s0 with y := 0x10 }))) =
      0x77 := by decide

/-- V10. -/
theorem test_lda_indirectY_wraps_in_page_0 :
    (fun t => t.a)
      (after [0xB1, 0xFF] (ram 0xFF [0x00] (ram 0x00 [0x20] (ram 0x0100 [0x30] (ram 0x2001 [0xAA]
      (ram 0x3001 [0xBB] { s0 with y := 1 })))))) =
      0xAA := by decide

/-- V10. -/
theorem test_lda_indirectY_no_wrap :
    (fun t => t.a)
      (after [0xB1, 0xFF] (ram 0xFF [0x00] (ram 0x00 [0x20] (ram 0x0100 [0x30] (ram 0x2001 [0xAA]
      (ram 0x3001 [0xBB] { s0 with y := 1, cfg := { Config.standard with zpPtrWrap := false } })))))) =
      0xBB := by decide

/-- V2. -/
theorem test_ldx_immediate :
    (fun t => (t.x, t.flags.n, t.flags.z)) (after [0xA2, 0x80] (s0)) = (0x80, true, false) := by decide

/-- V4. -/
theorem test_ldx_zeroPageY_wraps : (fun t => t.x) (after [0xB6, 0xFF] ({ s0 with y := 2 })) = 0x37 := by decide

/-- R127. -/
theorem test_ldy_immediate :
    (fun t => (t.y, t.flags.z, t.flags.n)) (after [0xA0, 0x00] (s0)) = (0x00, true, false) := by decide

/-- V7. -/
theorem test_sta_absoluteY_wraps :
    (fun t => t.ramByte 0x0002) (after [0x99, 0xFF, 0xFF] ({ s0 with a := 0x42, y := 3 })) = 0x42 := by decide

/-- V12. -/
theorem test_sta_port_changes_the_mode :
    (fun t => (t.ramByte 0x0001, t.mode, nvbdizc t)) (after [0x85, 0x01] ({ s0 with a := 0x30 })) =
      (0x30, 24, [false, false, false, false, false, false, false]) := by decide

/-- R129. -/
theorem test_stx_zeroPageY_wraps :
    (fun t => t.ramByte 0x0001) (after [0x96, 0xFF] ({ s0 with x := 0xFF, y := 2 })) = 0xFF := by decide

/-- R130. -/
theorem test_sty_under_io :
    (fun t => (t.ramByte 0xD000, t.memRead 0xD000))
      (after [0x8C, 0x00, 0xD0] ({ s0 with y := 0x07, io := [(0, 0x11)] })) =
      (0x07, 0x11) := by decide

/-- V14. -/
theorem test_tax : (fun t => (t.x, t.flags.z)) (after [0xAA] ({ s0 with x := 5 })) = (0x00, true) := by decide

/-- R132. -/
theorem test_tay :
    (fun t => (t.y, t.flags.n, t.flags.z)) (after [0xA8] ({ s0 with a := 0x90 })) = (0x90, true, false) := by decide

/-- R133. -/
theorem test_txa :
    (fun t => (t.a, t.flags.n, t.flags.z)) (after [0x8A] ({ s0 with x := 0x7F })) = (0x7F, false, false) := by decide

/-- R134. -/
theorem test_tya : (fun t => (t.a, t.flags.n)) (after [0x98] ({ s0 with y := 0x80 })) = (0x80, true) := by decide

/-- V15. -/
theorem test_tsx : (fun t => (t.x, t.flags.n)) (after [0xBA] (s0)) = (0xFF, true) := by decide

/-- V16. -/
theorem test_txs_writes_no_flag :
    (fun t => (t.sp, nvbdizc t)) (after [0x9A] (allFlags s0)) =
      (0x00, [true, true, true, true, true, true, true]) := by decide

/-- V17. -/
theorem test_pha_wraps :
    (fun t => (t.ramByte 0x0100, t.sp)) (after [0x48] ({ s0 with a := 0x81, sp := 0 })) = (0x81, 0xFF) := by decide

/-- V18. -/
theorem test_pla_wraps :
    (fun t => (t.a, t.flags.n, t.sp)) (after [0x68] (ram 0x0100 [0x80] s0)) = (0x80, true, 0x00) := by decide

/-- V19. -/
theorem test_php :
    (fun t => (t.ramByte 0x01FF, t.sp)) (after [0x08] ({ s0 with flags := { s0.flags with n := true, c := true } })) =
      (0xA1, 0xFE) := by decide

/-- V20. -/
theorem test_php_pushes_the_stored_b :
    (fun t => t.ramByte 0x01FF) (after [0x08] ({ s0 with flags := { s0.flags with b := true } })) = 0x30 := by decide

/-- V21. -/
theorem test_plp_sets_all :
    (fun t => (nvbdizc t, t.sp)) (after [0x28] (ram 0x01FF [0xFF] { s0 with sp := 0xFE })) =
      ([true, true, true, true, true, true, true], 0xFF) := by decide

/-- V22. -/
theorem test_plp_clears_all :
    (fun t => nvbdizc t) (after [0x28] (ram 0x01FF [0x00] (allFlags { s0 with sp := 0xFE }))) =
      [false, false, false, false, false, false, false] := by decide

/-- V24. -/
theorem test_adc_carry :
    (fun t => (t.a, nvzc t))
      (after [0x69, 0x01] ({ s0 with a := 0xFF, flags := { s0.flags with c := false, d := false } })) =
      (0x00, [false, false, true, true]) := by decide

/-- V26. -/
theorem test_adc_carry_in_overflows :
    (fun t => (t.a, nvzc t))
      (after [0x69, 0x00] ({ s0 with a := 0x7F, flags := { s0.flags with c := true, d := false } })) =
      (0x80, [true, true, false, false]) := by decide

/-- V37. -/
theorem test_adc_decimal :
    (fun t => (t.a, nvzc t))
      (after [0x65, 0x10] (ram 0x10 [0x46] { s0 with a := 0x58, flags := { s0.flags with c := true, d := true } })) =
      (0x05, [false, true, false, true]) := by decide

/-- V48. -/
theorem test_adc_decimal_v_unchanged :
    (fun t => (t.a, nvzc t))
      (after [0x6D, 0x00, 0x20]
      (ram 0x2000 [0x10] { unchangedV with a := 0x50, flags := { s0.flags with c := false, d := true, v := true } })) =
      (0x60, [false, true, false, false]) := by decide

/-- V30. -/
theorem test_sbc_overflow :
    (fun t => (t.a, nvzc t))
      (after [0xE9, 0xB0] ({ s0 with a := 0x50, flags := { s0.flags with c := true, d := false } })) =
      (0xA0, [true, true, false, false]) := by decide

/-- V33. -/
theorem test_sbc_borrow_in :
    (fun t => (t.a, nvzc t))
      (after [0xE9, 0x05] ({ s0 with a := 0x05, flags := { s0.flags with c := false, d := false } })) =
      (0xFF, [true, false, false, false]) := by decide

/-- V44. -/
theorem test_sbc_decimal :
    (fun t => (t.a, nvzc t))
      (after [0xE5, 0x10] (ram 0x10 [0x21] { s0 with a := 0x12, flags := { s0.flags with c := true, d := true } })) =
      (0x91, [true, false, false, false]) := by decide

/-- V47. -/
theorem test_sbc_decimal_invalid_digit :
    (fun t => (t.a, nvzc t))
      (after [0xED, 0x00, 0x20]
      (ram 0x2000 [0x05] { s0 with a := 0x1A, flags := { s0.flags with c := true, d := true } })) =
      (0x15, [false, false, false, true]) := by decide

/-- W2. -/
theorem test_and :
    (fun t => (t.a, t.flags.n, t.flags.z, t.pc)) (after [0x29, 0xF0] ({ s0 with a := 0xFF })) =
      (0xF0, true, false, 0xC001) := by decide

/-- R147. -/
theorem test_ora :
    (fun t => (t.a, t.flags.n)) (after [0x09, 0x80] ({ s0 with a := 0x0F })) = (0x8F, true) := by decide

/-- V51. -/
theorem test_eor :
    (fun t => (t.a, t.flags.z)) (after [0x49, 0x5A] ({ s0 with a := 0x5A })) = (0x00, true) := by decide

/-- V52. -/
theorem test_bit :
    (fun t => (t.a, nvzc t)) (after [0x24, 0x10] (ram 0x10 [0xC0] { s0 with a := 0x01 })) =
      (0x01, [true, true, true, false]) := by decide

/-- V53. -/
theorem test_bit_clears :
    (fun t => nvzc t) (after [0x2C, 0x00, 0x20] (ram 0x2000 [0x3F] (allFlags { s0 with a := 0xFF }))) =
      [false, false, false, true] := by decide

/-- V54. -/
theorem test_cmp_below :
    (fun t => nvzc t) (after [0xC9, 0x41] ({ s0 with a := 0x40 })) = [true, false, false, false] := by decide

/-- V61. -/
theorem test_cmp_keeps_v_and_takes_no_carry :
    (fun t => nvzc t) (after [0xC9, 0x40] ({ s0 with a := 0x40, flags := { s0.flags with v := true } })) =
      [false, true, true, true] := by decide

/-- V59. -/
theorem test_cpx :
    (fun t => nvzc t) (after [0xE0, 0x05] ({ s0 with x := 0x05 })) = [false, false, true, true] := by decide

/-- V60. -/
theorem test_cpy : (fun t => nvzc t) (after [0xC0, 0x80] (s0)) = [true, false, false, false] := by decide

/-- V62. -/
theorem test_inc_wraps :
    (fun t => (t.ramByte 0x10, t.flags.z)) (after [0xE6, 0x10] (ram 0x10 [0xFF] s0)) = (0x00, true) := by decide

/-- V64. -/
theorem test_inc_reads_the_rom_writes_the_ram :
    (fun t => (t.ramByte 0xA000, t.flags.n, t.memRead 0xA000))
      (after [0xEE, 0x00, 0xA0] (ram 0xA000 [0x11] { s0 with basic := [(0, 0x94)] })) =
      (0x95, true, 0x94) := by decide

/-- V63. -/
theorem test_dec_wraps :
    (fun t => (t.ramByte 0x2000, t.flags.n)) (after [0xCE, 0x00, 0x20] (s0)) = (0xFF, true) := by decide

/-- V65. -/
theorem test_inx_wraps :
    (fun t => (t.x, t.flags.z)) (after [0xE8] ({ s0 with x := 0xFF })) = (0x00, true) := by decide

/-- V68. -/
theorem test_iny_keeps_c_and_v :
    (fun t => (t.y, nvzc t)) (after [0xC8] (allFlags s0)) = (0x01, [false, true, false, true]) := by decide

/-- V67. -/
theorem test_dex : (fun t => (t.x, t.flags.z)) (after [0xCA] ({ s0 with x := 1 })) = (0x00, true) := by decide

/-- V66. -/
theorem test_dey_wraps : (fun t => (t.y, t.flags.n)) (after [0x88] (s0)) = (0xFF, true) := by decide

/-- V70. -/
theorem test_asl :
    (fun t => (t.a, nvzc t)) (after [0x0A] ({ s0 with a := 0x80 })) = (0x00, [false, false, true, true]) := by decide

/-- V78. -/
theorem test_asl_reads_io_writes_ram :
    (fun t => (t.ramByte 0xD000, t.flags.c, t.io))
      (after [0x0E, 0x00, 0xD0] (ram 0xD000 [0x11] { s0 with io := [(0, 0x81)] })) =
      (0x02, true, [(0, 0x81)]) := by decide

/-- V71. -/
theorem test_lsr :
    (fun t => (t.a, nvzc t)) (after [0x4A] ({ s0 with a := 0x01 })) = (0x00, [false, false, true, true]) := by decide

/-- R160. -/
theorem test_lsr_memory :
    (fun t => (t.ramByte 0x10, nvzc t)) (after [0x46, 0x10] (ram 0x10 [0x03] s0)) =
      (0x01, [false, false, false, true]) := by decide

/-- V73. -/
theorem test_rol :
    (fun t => (t.a, nvzc t)) (after [0x2A] ({ s0 with a := 0x40, flags := { s0.flags with c := true } })) =
      (0x81, [true, false, false, false]) := by decide

/-- V75. -/
theorem test_ror :
    (fun t => (t.a, nvzc t)) (after [0x6A] ({ s0 with a := 0x02, flags := { s0.flags with c := true } })) =
      (0x81, [true, false, false, false]) := by decide

/-- V76. -/
theorem test_ror_carry_out :
    (fun t => (t.a, nvzc t)) (after [0x6A] ({ s0 with a := 0x01 })) = (0x00, [false, false, true, true]) := by decide

/-- V79. -/
theorem test_jmp_absolute : (fun t => t.pc) (after [0x4C, 0x00, 0xC0] (s0)) = 0xBFFF := by decide

/-- V81. -/
theorem test_jmp_indirect_next_page :
    (fun t => t.pc) (after [0x6C, 0xFF, 0x02] (ram 0x02FF [0x34, 0x12] (ram 0x0200 [0x56] s0))) = 0x1233 := by decide

/-- V81. -/
theorem test_jmp_indirect_page_bug :
    (fun t => t.pc)
      (after [0x6C, 0xFF, 0x02] (ram 0x02FF [0x34, 0x12]
      (ram 0x0200 [0x56] { s0 with cfg := { Config.standard with jmpIndPageBug := true } }))) =
      0x5633 := by decide

/-- V82. -/
theorem test_jsr :
    (fun t => (t.ramByte 0x01FF, t.ramByte 0x01FE, t.sp, t.pc)) (after [0x20, 0x34, 0x12] (s0)) =
      (0xC0, 0x02, 0xFD, 0x1233) := by decide

/-- V83. -/
theorem test_rts :
    (fun t => (t.pc, t.sp)) (after [0x60] (ram 0x01FE [0x0C, 0xC0] { s0 with sp := 0xFD })) =
      (0xC00C, 0xFF) := by decide

/-- R166. -/
theorem test_bcc_taken : (fun t => t.pc) (after [0x90, 0x04] (s0)) = 0xC005 := by decide

/-- R167. -/
theorem test_bcs_not_taken : (fun t => t.pc) (after [0xB0, 0x04] (s0)) = 0xC001 := by decide

/-- V84. -/
theorem test_beq_back_to_itself :
    (fun t => t.pc) (after [0xF0, 0xFE] ({ s0 with flags := { s0.flags with z := true } })) = 0xBFFF := by decide

/-- R169. -/
theorem test_bmi_taken_back :
    (fun t => t.pc) (after [0x30, 0x80] ({ s0 with flags := { s0.flags with n := true } })) = 0xBF81 := by decide

/-- V85. -/
theorem test_bne_not_taken :
    (fun t => t.pc) (after [0xD0, 0x80] ({ s0 with flags := { s0.flags with z := true } })) = 0xC001 := by decide

/-- V86. -/
theorem test_bpl_taken : (fun t => t.pc) (after [0x10, 0x7F] (s0)) = 0xC080 := by decide

/-- R172. -/
theorem test_bvc_not_taken :
    (fun t => t.pc) (after [0x50, 0x10] ({ s0 with flags := { s0.flags with v := true } })) = 0xC001 := by decide

/-- V89. -/
theorem test_bvs_wraps_below_zero :
    (stepped (ram 0x0000 [0x70, 0x30] { s0 with pc := 0xFFFF, flags := { s0.flags with v := true } })).pc =
      0x0031 := by decide

/-- R174. -/
theorem test_clc :
    (fun t => nvbdizc t) (after [0x18] (allFlags s0)) = [true, true, true, true, true, true, false] := by decide

/-- R175. -/
theorem test_cld :
    (fun t => nvbdizc t) (after [0xD8] (allFlags s0)) = [true, true, true, false, true, true, true] := by decide

/-- R176. -/
theorem test_cli :
    (fun t => nvbdizc t) (after [0x58] (allFlags s0)) = [true, true, true, true, false, true, true] := by decide

/-- V91. -/
theorem test_clv :
    (fun t => nvbdizc t) (after [0xB8] (allFlags s0)) = [true, false, true, true, true, true, true] := by decide

/-- R178. -/
theorem test_sec :
    (fun t => nvbdizc t) (after [0x38] (s0)) = [false, false, false, false, false, false, true] := by decide

/-- V92. -/
theorem test_sed :
    (fun t => nvbdizc t) (after [0xF8] (s0)) = [false, false, false, true, false, false, false] := by decide

/-- R180. -/
theorem test_sei :
    (fun t => nvbdizc t) (after [0x78] (s0)) = [false, false, false, false, true, false, false] := by decide

/-- V93. -/
theorem test_nop : after [0xEA] s0 = { ram 0xC000 [0xEA] s0 with pc := 0xC000 } := by decide

/-- V94. -/
theorem test_brk_stops :
    (fun t => (t.flags.b, t.pc, t.sp, t.signals)) (after [0x00, 0x00] (s0)) =
      (true, 0xC001, 0xFF, [.breakStop]) := by decide

/-- V95. -/
theorem test_brk_enters :
    (fun t => ([t.ramByte 0x01FF, t.ramByte 0x01FE, t.ramByte 0x01FD, t.sp], t.flags.b, t.flags.i, t.pc))
      (after [0x00, 0x00] (vectored 0x00 0xC1 { s0 with stopOnBreak := false })) =
      ([0xC0, 0x02, 0x30, 0xFC], true, true, 0xC0FF) := by decide

/-- V96. -/
theorem test_rti :
    (fun t => (nvbdizc t, t.sp, t.pc, t.inService))
      (after [0x40] (ram 0x01FD [0xE7, 0x34, 0x12] { s0 with sp := 0xFC, inService := true })) =
      ([true, true, false, false, true, true, true], 0xFF, 0x1233, false) := by decide

/-! Interrupts, the illegal path, the memory-mapping unit and the host's transactions. -/

/-- W3. -/
theorem test_interrupt_after_nop :
    (fun t => ([t.ramByte 0x01FF, t.ramByte 0x01FE, t.ramByte 0x01FD, t.sp], t.pc, t.pending, t.inService, t.flags.i))
      (after [0xEA] ((vectored 0x00 0xC1 s0).raiseIrq)) =
      ([0xC0, 0x01, 0x20, 0xFC], 0xC0FF, 0, true, false) := by decide

/-- V102. -/
theorem test_interrupt_sets_i :
    (fun t => ([t.ramByte 0x01FF, t.ramByte 0x01FE, t.ramByte 0x01FD, t.sp], t.pc, t.pending, t.inService, t.flags.i))
      (after [0xEA]
      ((vectored 0x00 0xC1 { s0 with cfg := { Config.standard with irqEntrySetsI := true } }).raiseIrq)) =
      ([0xC0, 0x01, 0x20, 0xFC], 0xC0FF, 0, true, true) := by decide

/-- W4. -/
theorem test_interrupt_masked :
    (fun t => (t.pc, t.sp, t.pending, t.ram))
      (after [0xEA] ({ s0 with flags := { s0.flags with i := true } }.raiseIrq)) =
      (0xC000, 0xFF, 1, [(0xC000, 0xEA)]) := by decide

/-- V97. -/
theorem test_interrupt_after_stopped_break :
    (fun t => ([t.ramByte 0x01FF, t.ramByte 0x01FE, t.ramByte 0x01FD], t.pc, t.pending, t.signals))
      (after [0x00, 0xEA] ((vectored 0x00 0xC1 s0).raiseIrq)) =
      ([0xC0, 0x02, 0x30], 0xC0FF, 0, [.breakStop]) := by decide

/-- V98. -/
theorem test_break_entry_masks :
    (fun t => (t.ramByte 0x01FE, t.flags.i, t.pending, t.inService))
      (after [0x00, 0xEA] ((vectored 0x00 0xC1 { s0 with stopOnBreak := false }).raiseIrq)) =
      (0x02, true, 1, false) := by decide

/-- V101. -/
theorem test_gated_by_in_service :
    (fun t => (t.pc, t.pending, t.inService))
      (after [0xEA]
      ({ s0 with inService := true, pending := 1, cfg := { Config.standard with irqGatedByInService := true } })) =
      (0xC000, 1, true) := by decide

/-- V99. -/
theorem test_raises_coalesce : s0.raiseIrq.raiseIrq.raiseIrq.pending = 1 := by decide

/-- W13. -/
theorem test_illegal_byte :
    (fun t => (t.pc, t.signals, t.ram)) (after [0x02, 0xA9] (s0)) =
      (0xC000, [.illegalOpcode 0x02 0xC000], [(0xC000, 0x02), (0xC001, 0xA9)]) := by decide

/-- W5. -/
theorem test_push_wraps :
    (fun t => [t.ramByte 0x0101, t.ramByte 0x0100, t.ramByte 0x01FF, t.sp])
      ((({ s0 with sp := 1 }.push 0x11).push 0x22).push 0x33) =
      [0x11, 0x22, 0x33, 0xFE] := by decide

/-- W8. -/
theorem test_bcd :
    ([0, 9, 10, 99, 100, 123, 331].map toBCD, [fromBCD 0x47, fromBCD 0x99, fromBCD 0x1A]) =
      ([0x00, 0x09, 0x10, 0x99, 0x00, 0x23, 0x31], [47, 99, 20]) := by decide

/-- W14. -/
theorem test_open_bus :
    (fun t => (t.memRead 0x2000, t.ramByte 0x2000)) ((ram 0x2000 [0x77] { s0 with game := false }).poke 0x2000 0x55) =
      (0x00, 0x55) := by decide

/-- W9. -/
theorem test_write_through :
    (fun t : State => (t.memRead 0xA000, (t.poke 0x0001 0x34).memRead 0xA000))
      ({ s0 with basic := [(0, 0x94)] }.poke 0xA000 0x99) =
      (0x94, 0x99) := by decide

/-- W10. -/
theorem test_routing_mode_31 :
    [0x0800, 0x4000, 0x9000, 0xB000, 0xC800, 0xD800, 0xF000].map s0.servedBy =
      [.ram, .ram, .ram, .basic, .ram, .io, .kernal] := by decide

/-- W10. -/
theorem test_routing_mode_23 :
    [0x0800, 0x4000, 0x9000, 0xB000, 0xC800, 0xD800, 0xF000].map ({ s0 with game := false }).servedBy =
      [.ram, .openBus, .cartLo, .openBus, .openBus, .io, .cartHi] := by decide

/-- W10. -/
theorem test_routing_mode_7 :
    [0x0800, 0x4000, 0x9000, 0xB000, 0xC800, 0xD800, 0xF000].map (s0.setCartLines false false).servedBy =
      [.ram, .ram, .cartLo, .cartHi, .ram, .io, .kernal] := by decide

/-- R47. -/
theorem test_loadRom_drops_the_excess :
    (fun t : State => (t.memRead 0xA000, t.memRead 0xA001, t.basic)) (s0.loadRom .basic [0x00, 0x94]) =
      (0x00, 0x94, [(1, 0x94)]) := by decide

/-- R38. -/
theorem test_deviceWrite_reaches_io_only :
    (fun t : State => (t.memRead 0xD005, t.ramByte 0xD005)) (s0.deviceWrite 5 0x77) = (0x77, 0x00) := by decide

/-- R46. -/
theorem test_snapshot : (s0.snapshot.pc, s0.snapshot.sp, s0.peek 0x0001) = (0xBFFF, 0xFF, 0x37) := by decide

/-! Witnesses: concrete states and operands that meet the hypotheses of the statements, one theorem for each statement
that has some, each clause and each end of a range shown. -/

/-- S0 in the Ultimax mode 23. -/
def ultimax : State := { s0 with game := false }

/-- S0 with a request due. -/
def due : State := { s0 with pending := 1 }

/-- A next state exists for every arm; the hypotheses `exec i s = next t` and `step s = next t` are met everywhere. -/
theorem witness_next : (∃ t, exec .nop s0 = .next t) ∧ (∃ t, step s0 = .next t) := ⟨⟨_, rfl⟩, ⟨_, rfl⟩⟩

theorem witness_DecodeOfEncodeIsTheInstruction :
    (Instr.bne (-128)).wellFormed = true ∧ (Instr.bne 127).wellFormed = true ∧ (Instr.brk 0xFF).wellFormed = true := by
  decide

theorem witness_EncodeOfDecodeIsTheBytes :
    decode [0xD0, 0x80, 0x55] = .ok (.bne (-128), [0x55]) ∧ decode [0xBD, 0xFF, 0xFF] = .ok (.ldaAbsX 0xFFFF, []) := by
  decide

theorem witness_EveryByteIsAnInstructionOrIllegal :
    illegalBytes.contains 0x02 = true ∧ illegalBytes.contains 0xFF = true ∧
    illegalBytes.contains 0x00 = false ∧ illegalBytes.contains 0xFE = false := by decide

/-- Both ends of each zone a chunk other than RAM serves in modes 31 and 23. -/
theorem witness_ReadsAreRoutedToTheServingChunk :
    [0xA000, 0xBFFF, 0xD000, 0xDFFF, 0xE000, 0xFFFF].map s0.servedBy = [.basic, .basic, .io, .io, .kernal, .kernal] ∧
    [0x8000, 0x9FFF, 0xE000, 0xFFFF, 0x0FFF].map ultimax.servedBy = [.cartLo, .cartLo, .cartHi, .cartHi, .ram] := by
  decide

theorem witness_WrittenByteIsReadInTheAllRamMode : (0xA000 : Word) ≠ portAddr ∧
    (((s0.memWrite 0xA000 0x99).memWrite portAddr 0x34).setCartLines true true).mode = 28 ∧
    (((s0.memWrite 0xFFFF 0x99).memWrite portAddr 0x00).setCartLines false false).mode = 0 := by decide

theorem witness_LowMemoryReadsRamInEveryMode : (0x0000 : Word).toNat ≤ 0x0FFF ∧ (0x0FFF : Word).toNat ≤ 0x0FFF := by
  decide

/-- Both ends of the Open zones of mode 23. -/
theorem witness_OpenBusReadsTheSentinel :
    [0x1000, 0x7FFF, 0xA000, 0xBFFF, 0xC000, 0xCFFF].all (fun a => ultimax.servedBy a == .openBus) = true := by decide

theorem witness_CartridgeHighServesTwoZones :
    let s := (s0.memWrite portAddr 0x02).setCartLines false false
    let s' := s0.setCartLines false false
    let t := (s0.memWrite portAddr 0x00).setCartLines false true
    let t' := s0.setCartLines false true
    0x1FFF < 0x2000 ∧ t.cartHi = s.cartHi ∧ s.mode.toNat ∈ [2, 3, 6, 7] ∧ s'.mode = 7 ∧
    16 ≤ t.mode.toNat ∧ t.mode = 16 ∧ t'.mode = 23 ∧ t'.mode.toNat ≤ 23 := by decide

theorem witness_ModeChangesTakeEffectAtOnce : (0x0000 : Word) ≠ 0x0001 ∧ (0x0002 : Word) ≠ 0x0001 := by decide

/-- Three slots that wrap in page `$01`, each with its byte, and the addresses next to them outside. -/
theorem witness_PushesOnly :
    [0, 1, 2].map (slotBelow { s0 with sp := 1 }) = [0x0101, 0x0100, 0x01FF] ∧ ([1, 2, 3] : List Byte)[2]? = some 3 ∧
    [0x00FF, 0x0102, 0x01FE, 0x0200].all (fun a => [0, 1, 2].all fun k => a != slotBelow { s0 with sp := 1 } k) = true := by
  decide

theorem witness_StoreIsSeenWhereRamServesTheAddress :
    (s0.memWrite 0x9FFF 1).servedBy 0x9FFF = .ram ∧ (s0.memWrite 0xA000 1).servedBy 0xA000 ≠ .ram ∧
    (s0.memWrite 0x0001 0x34).servedBy 0x0001 = .ram := by decide

theorem witness_CanonicalMemoriesThatReadAlikeAreEqual :
    Memory.wf .ram [(0, 0x2F), (0xFFFF, 0x01)] = true ∧ Memory.wf .ram [(1, 0x37)] = false ∧
    Memory.wf .io [(0xFFF, 0x01)] = true ∧ Memory.wf .io [(0x1000, 0x01)] = false := by decide

theorem witness_ConversionsRoundTrip : (0 : Nat) ≤ 99 ∧ (99 : Nat) ≤ 99 := by decide

/-- A store to the port, a store seen, a store under an overlay, and an Accumulator form: the cases of a stored result. -/
theorem witness_StoresPutTheRegisterInRam :
    s0.resolve (.zeroPage 0x01) = .mem portAddr ∧ (stepped s0).servedBy portAddr = .ram ∧
    s0.resolve (.absolute 0xA000) = .mem 0xA000 ∧ s0.servedBy 0xA000 ≠ .ram ∧ s0.resolve .accumulator = .regA := by decide

/-- Binary and decimal mode, and the rule that leaves V alone. -/
theorem witness_AdcAddsWithCarry : s0.flags.d = false ∧ (allFlags s0).flags.d = true ∧
    ({ Config.standard with decimalVRule := .unchanged }).decimalVRule = .unchanged := by decide

/-- Each branch condition holds in one of the two states and fails in the other. -/
theorem witness_BranchesMoveThePcOnTheirCondition :
    s0.flags.c = false ∧ s0.flags.z = false ∧ s0.flags.n = false ∧ s0.flags.v = false ∧
    (allFlags s0).flags.c = true ∧ (allFlags s0).flags.z = true ∧ (allFlags s0).flags.n = true ∧
    (allFlags s0).flags.v = true := by decide

theorem witness_BrkStopsOrEntersTheHandler :
    s0.stopOnBreak = true ∧ (s0.setStopOnBreak false).stopOnBreak = false ∧ s0.memRead (s0.pc + 1) = 0x00 ∧
    (s0.setStopOnBreak false).memRead ((s0.setStopOnBreak false).pc + 1) = 0x00 := by decide

theorem witness_RtiRestoresFlagsAndPc : (ram 0xC000 [0x40] s0).memRead (s0.pc + 1) = 0x40 := by decide

/-- CLI and PLP with a request due and with none, SEI; the gating flag off, and on outside a handler. -/
theorem witness_MaskChangesDecideDeliveryInTheSameStep :
    (ram 0xC000 [0x58] due).memRead (due.pc + 1) = 0x58 ∧ (ram 0xC000 [0x78] due).memRead (due.pc + 1) = 0x78 ∧
    (ram 0xC000 [0x28] due).memRead (due.pc + 1) = 0x28 ∧ 0 < due.pending ∧ s0.pending = 0 ∧
    due.cfg.irqGatedByInService = false ∧ due.inService = false ∧
    ((ram 0xC000 [0x28] due).ramByte (slotAbove due 1)).toNat.testBit 2 = false := by decide

theorem witness_ReturnComesBackBehindTheCall : ∃ t, exec (.jsrAbs 0x1234) s0 = .next t := ⟨_, rfl⟩

/-- A request is due, with the gating flag off and with it on outside a handler (InterruptCheckTakesTheEntry,
ReturnUndoesTheInterruptEntry). -/
theorem witness_DeliveryDue : DeliveryDue due ∧
    DeliveryDue { due with cfg := { Config.standard with irqGatedByInService := true } } := by
  unfold DeliveryDue; decide

/-- No request is due (InterruptCheckTakesTheEntry): none pending, masked, or gated inside a handler. -/
theorem witness_not_DeliveryDue : ¬ DeliveryDue s0 ∧ ¬ DeliveryDue (allFlags due) ∧
    ¬ DeliveryDue { due with inService := true, cfg := { Config.standard with irqGatedByInService := true } } := by
  unfold DeliveryDue; decide

theorem witness_ReturnGoesOnBehindTheBreak : (s0.setStopOnBreak false).stopOnBreak = false ∧
    ∃ t, exec (.brk 0) (s0.setStopOnBreak false) = .next t := ⟨rfl, _, rfl⟩

theorem witness_StepRunsTheDecodedInstruction :
    decode [s0.memRead (s0.pc + 1), s0.memRead (s0.pc + 2), s0.memRead (s0.pc + 3)] = .ok (.brk 0, [0x00]) ∧
    ∃ t, exec (.brk 0) { s0 with signals := [], pc := s0.pc + 1 + BitVec.ofNat 16 (Instr.brk 0).mode.operandBytes } =
      .next t := ⟨by decide, _, rfl⟩

theorem witness_IllegalByteIsAOneByteNoOp :
    illegalBytes.contains ((ram 0xC000 [0x02] s0).memRead (s0.pc + 1)) = true := by decide

/-- A step that delivers, one that does not, and one that runs RTI. -/
theorem witness_StepDeliversAtMostOneRequest :
    (after [0xEA] due).pending + 1 = due.pending ∧ (after [0xEA] s0).pending = s0.pending ∧
    (after [0x40] { s0 with inService := true }).inService = false := by decide

/-- The latch empty and full. -/
theorem witness_RaisedRequestsSaturate : s0.pending ≤ s0.cfg.irqQueueCap ∧ due.pending ≤ due.cfg.irqQueueCap := by decide

theorem witness_EveryStepKeepsTheInvariant : s0.Inv ∧ (vectored 0x00 0xC1 due).Inv ∧ ∃ t, step s0 = .next t :=
  ⟨by unfold State.Inv; decide, by unfold State.Inv; decide, _, rfl⟩

theorem witness_ResetEstablishesTheLaunch : Launch.standard.cfg.resetEntry = none ∧
    ({ Config.standard with resetEntry := some 0xC000 }).resetEntry = some 0xC000 := by decide

/-- For the frames of the flags and the registers: NOP writes nothing they list; LDX writes X and its flags; TXS writes SP and no flag. -/
theorem witness_frames :
    (∃ t, exec .nop s0 = .next t) ∧
    [writesA, writesX, writesY, writesSp, movesPc, writesC, writesNZ, writesI, writesD, writesB, writesV].all
      (fun f => !f .nop) = true ∧ writesX (.ldxImm 0) = true ∧ writesC (.ldxImm 0) = false ∧ writesSp .txs = true ∧
    writesNZ .txs = false := ⟨⟨_, rfl⟩, by decide⟩

/-- An instruction that stores nothing, one that stores elsewhere than the port, one that stores to it. -/
theorem witness_MemoryChangesOnlyAtTheStoreAddresses :
    storeAddresses .nop s0 = [] ∧ portAddr ∉ storeAddresses (.staZp 0x02) s0 ∧
    (0x0003 : Word) ∉ storeAddresses (.staZp 0x02) s0 ∧ portAddr ∈ storeAddresses (.staZp 0x01) s0 := by decide

end Sys2Proof.Tests
end

section
/-! PROOFS. Every step completes and emits at most one advisory signal (00_scope.md R12, 10_state.md R41). The table of
opcodes and R101's list of illegal bytes share out the 256 bytes; only BRK's stop path and the illegal path emit. -/

namespace Sys2Proof

open Sys2Proof.Machine Sys2Proof.Claims

/-- The bytes without a row in the opcode table are R101's list. -/
theorem opcodeTable_lookup_isNone (op : Byte) : (opcodeTable.lookup op).isNone = illegalBytes.contains op := by
  revert op; decide

/-- A window of three bytes fails to decode only at an illegal opcode byte (30_encoding.md R109). -/
theorem illegal_of_decode_error {op b1 b2 : Byte} {l : List Byte} {e : DecodeError}
    (h : decode (op :: b1 :: b2 :: l) = .error e) : illegalBytes.contains op = true := by
  rw [← opcodeTable_lookup_isNone]
  cases hl : opcodeTable.lookup op with
  | none => rfl
  | some sh =>
    obtain ⟨i, r, hd⟩ := decode_listed hl b1 b2 l
    rw [hd] at h
    cases h

namespace Machine

namespace State

/-- The interrupt check emits no signal. -/
@[simp] theorem checkIrq_signals (s : State) : s.checkIrq.signals = s.signals := by rw [checkIrq_next]

/-- What follows the instruction emits no signal (40_cycle.md R114, R115). -/
@[simp] theorem endOfStep_signals (s : State) (op : Byte) : (s.endOfStep op).signals = s.signals := by
  rw [endOfStep, checkIrq_signals, rtiFlagStep_next]

/-- The illegal path emits the byte and its address (60_exceptions.md R185). -/
@[simp] theorem illegalStep_signals (s : State) : s.illegalStep.signals =
    s.signals ++ [.illegalOpcode (s.memRead (s.pc + 1)) (s.pc + 1)] := rfl

end State

/-- BRK emits `BreakStop` on its stop path and nothing else (46_flags_system.md R182). -/
theorem brk_signals (s : State) :
    (brk s).signals = if s.stopOnBreak then s.signals ++ [.breakStop] else s.signals := by
  cases h : s.stopOnBreak
  · rw [brk_enter h, State.enterBreak_next, State.takeException_next]; rfl
  · rw [brk_stop h]; rfl

/-- An instruction emits no signal, or is a BRK in stop-on-break mode and emits `BreakStop`. -/
theorem exec_signals {i : Instr} {s t : State} (h : exec i s = .next t) : t.signals = s.signals ∨
    (∃ pad, i = .brk pad) ∧ s.stopOnBreak = true ∧ t.signals = s.signals ++ [.breakStop] := by
  cases i with
  | brk pad =>
    cases h
    rw [brk_signals]
    cases hb : s.stopOnBreak
    · exact .inl rfl
    · exact .inr ⟨⟨pad, rfl⟩, rfl, rfl⟩
  | rti => cases h; rw [State.returnFromException_next]; exact .inl rfl
  | bcc d | bcs d | beq d | bmi d | bne d | bpl d | bvc d | bvs d => cases h; rw [branch_next]; exact .inl rfl
  | _ => cases h; exact .inl rfl

/-- Settles O49: a step is an instruction or the illegal path (`step_next`), and each has its own signals. -/
theorem everyStepCompletes : Obligations.EveryStepCompletes := by
  intro s
  obtain ⟨u, hstep, ⟨i, rest, -, hexec⟩ | ⟨⟨e, hdecode⟩, rfl⟩⟩ := step_next s
  · refine ⟨_, hstep, ?_⟩
    rw [State.endOfStep_signals]
    obtain hnone | ⟨-, -, hstop⟩ := exec_signals hexec
    · exact .inl hnone
    · exact .inr (.inl hstop)
  · refine ⟨_, hstep, .inr (.inr ⟨s.memRead (s.pc + 1), ?_, illegal_of_decode_error hdecode⟩)⟩
    simp

end Machine

end Sys2Proof
end

section
/-! PROOFS. The mode in numbers, and the read of the port byte (10_state.md R34). -/

namespace Sys2Proof

open Sys2Proof.Machine

/-- A boolean used as a number is at most 1 (R9). -/
theorem bitNat_le_one (b : Bool) : bitNat b ≤ 1 := by cases b <;> decide

namespace Machine

namespace State

/-- The mode in numbers (10_state.md R34): the lines and the port's three bits share no bit of it, so OR is addition. -/
theorem toNat_mode (s : State) :
    s.mode.toNat = 16 * bitNat s.exrom + 8 * bitNat s.game + (s.ramByte portAddr).toNat % 8 := by
  have exrom : (bitByte s.exrom <<< 4).toNat = 2 ^ 4 * bitNat s.exrom := by cases s.exrom <;> rfl
  have game : (bitByte s.game <<< 3).toNat = 2 ^ 3 * bitNat s.game := by cases s.game <;> rfl
  have port : (s.ramByte portAddr &&& 7).toNat = (s.ramByte portAddr).toNat % 8 :=
    Nat.and_two_pow_sub_one_eq_mod _ 3
  have port_lt : (s.ramByte portAddr).toNat % 8 < 2 ^ 3 := Nat.mod_lt _ (by decide)
  have exrom_le := bitNat_le_one s.exrom
  have game_le := bitNat_le_one s.game
  rw [mode, BitVec.toNat_setWidth, BitVec.toNat_or, BitVec.toNat_or, exrom, game, port, Nat.or_assoc,
    ← Nat.two_pow_add_eq_or_of_lt port_lt, ← Nat.two_pow_add_eq_or_of_lt (by omega)]
  omega

/-- A read of the port gives its RAM byte in every mode (R34): the port is in zone 0. -/
theorem memRead_port (s : State) : s.memRead portAddr = s.ramByte portAddr :=
  s.memRead_z0 (zoneOf_low (by decide))

end State

/-- Settles O6: the mode's formula in numbers, and the port read through zone 0. -/
theorem modeIsComputedFromPortAndLines : Obligations.ModeIsComputedFromPortAndLines :=
  fun s => ⟨s.toNat_mode, s.memRead_port⟩

end Machine

end Sys2Proof
end

section
/-! PROOFS. Routing of reads and writes through the mode table (20_memory.md R51 to R57, R61, R63): an address lies in
its zone, a chunk that has storage of its own fills its zone, and a write changes RAM alone. -/

namespace Sys2Proof

open Sys2Proof.Machine Sys2Proof.Claims

namespace Machine

/-- The number of addresses in a zone (20_memory.md R51). -/
def Zone.size : Zone → Nat
  | .z0 | .z4 | .z5 => 0x1000
  | .z1 => 0x7000
  | .z2 | .z3 | .z6 => 0x2000

/-- An address lies between the two ends of its zone (R51, R52). -/
theorem base_zoneOf_le_and_lt (a : Word) :
    (zoneOf a).base.toNat ≤ a.toNat ∧ a.toNat < (zoneOf a).base.toNat + (zoneOf a).size := by
  have := a.isLt
  obtain ⟨hz, h⟩ | ⟨hz, h⟩ | ⟨hz, h⟩ | ⟨hz, h⟩ | ⟨hz, h⟩ | ⟨hz, h⟩ | ⟨hz, h⟩ := zoneOf_cases a <;>
    · simp only [hz, Zone.base, Zone.size, BitVec.ofNat_eq_ofNat, BitVec.toNat_ofNat]
      omega

/-- The base in numbers is the base of the zone (R51). -/
theorem zoneBase_toNat (a : Word) : zoneBase a.toNat = (zoneOf a).base.toNat := by
  obtain ⟨hz, h⟩ | ⟨hz, h⟩ | ⟨hz, h⟩ | ⟨hz, h⟩ | ⟨hz, h⟩ | ⟨hz, h⟩ | ⟨hz, h⟩ := zoneOf_cases a <;>
    · simp only [hz, Zone.base, zoneBase, BitVec.ofNat_eq_ofNat, BitVec.toNat_ofNat]
      split_ifs <;> omega

/-- A chunk other than RAM and Open is as large as any zone it serves, in every mode (R53, R55). -/
theorem size_chunkFor (mode : BitVec 5) (z : Zone) :
    chunkFor mode z ≠ .openBus → chunkFor mode z ≠ .ram → (chunkFor mode z).size = z.size := by
  cases z <;> revert mode <;> decide

namespace State

/-- The zone-local offset in numbers: the subtraction of R54 does not wrap. -/
theorem toNat_localOffset (a : Word) : (localOffset a).toNat = a.toNat - zoneBase a.toNat := by
  rw [zoneBase_toNat, localOffset, BitVec.toNat_sub_of_le (BitVec.le_def.2 (base_zoneOf_le_and_lt a).1)]

/-- The offset lies inside the serving chunk, where that is not RAM or Open (R54, R56). -/
theorem offset_lt_size_servedBy {s : State} {a : Word} (ho : s.servedBy a ≠ .openBus) (hr : s.servedBy a ≠ .ram) :
    a.toNat - zoneBase a.toNat < (s.servedBy a).size := by
  obtain ⟨hle, hlt⟩ := base_zoneOf_le_and_lt a
  have hsize : (s.servedBy a).size = (zoneOf a).size := size_chunkFor s.mode (zoneOf a) ho hr
  rw [hsize, zoneBase_toNat]
  omega

/-- A read of a zone mapped to Open gives the open-bus value (R61). -/
theorem memRead_openBus {s : State} {a : Word} (h : s.servedBy a = .openBus) : s.memRead a = s.cfg.openBusValue := by
  rw [memRead, h]

/-- The port is never open: it lies in zone 0 (R55). -/
theorem ne_portAddr_of_openBus {s : State} {a : Word} (h : s.servedBy a = .openBus) : a ≠ portAddr := by
  rintro rfl
  rw [servedBy, zoneOf_low (by decide), chunkFor_z0] at h
  cases h

/-- A write outside the port leaves the routing of every read alone (R57, R62). -/
theorem servedBy_memWrite (s : State) {a : Word} (h : a ≠ portAddr) (v : Byte) (b : Word) :
    (s.memWrite a v).servedBy b = s.servedBy b := by
  rw [servedBy, servedBy, mode_memWrite s h]

/-- A change of the lines leaves the RAM bytes alone (R63). -/
@[simp] theorem ramByte_setCartLines (s : State) (game exrom : Bool) (a : Word) :
    (s.setCartLines game exrom).ramByte a = s.ramByte a := rfl

@[simp] theorem setCartLines_game (s : State) (game exrom : Bool) : (s.setCartLines game exrom).game = game := rfl

@[simp] theorem setCartLines_exrom (s : State) (game exrom : Bool) : (s.setCartLines game exrom).exrom = exrom := rfl

/-- A write to the port gives the mode the byte's low three bits and keeps the lines' two (R62). -/
theorem toNat_mode_memWrite_port (s : State) (v : Byte) :
    (s.memWrite portAddr v).mode.toNat = s.mode.toNat / 8 * 8 + v.toNat % 8 := by
  rw [toNat_mode, toNat_mode, memWrite_exrom, memWrite_game, ramByte_memWrite_same]
  omega

/-- A change of the lines gives the mode their two bits and keeps the port's three (R63). -/
theorem toNat_mode_setCartLines (s : State) (game exrom : Bool) :
    (s.setCartLines game exrom).mode.toNat = 16 * bitNat exrom + 8 * bitNat game + s.mode.toNat % 8 := by
  rw [toNat_mode, toNat_mode, setCartLines_exrom, setCartLines_game, ramByte_setCartLines]
  omega

end State

open State

/-- Settles O8: the offset bound of `offset_lt_size_servedBy`, and `memRead`'s routing chunk by chunk with the offset in
numbers. -/
theorem readsAreRoutedToTheServingChunk : Obligations.ReadsAreRoutedToTheServingChunk := by
  refine fun s addr => ⟨offset_lt_size_servedBy, ?_⟩
  rw [memRead, toNat_localOffset]
  cases s.servedBy addr <;> rfl

/-- Settles O9: a write is one update of RAM, and a RAM byte after it is the byte written or the old one. -/
theorem writesReachRamOnly : Obligations.WritesReachRamOnly :=
  fun s addr v => ⟨s.memWrite_eq addr v, fun a => s.ramByte_memWrite addr a v⟩

/-- Settles O12: the address is not the port, so the write leaves it routed to Open. -/
theorem openBusReadsTheSentinel : Obligations.OpenBusReadsTheSentinel := by
  intro s addr v hopen
  have hstill : (s.memWrite addr v).servedBy addr = .openBus :=
    (s.servedBy_memWrite (ne_portAddr_of_openBus hopen) v addr).trans hopen
  exact ⟨memRead_openBus hopen, memRead_openBus hstill, s.ramByte_memWrite_same addr v⟩

/-- Settles O14: the mode in numbers after each kind of change, and the frames of the two updates. -/
theorem modeChangesTakeEffectAtOnce : Obligations.ModeChangesTakeEffectAtOnce :=
  fun s v game exrom => ⟨s.toNat_mode_memWrite_port v, s.toNat_mode_setCartLines game exrom, rfl,
    fun a ha => (s.ramByte_memWrite portAddr a v).trans (if_neg ha)⟩

end Machine

end Sys2Proof
end

section
/-! PROOFS. Decoding is total (30_encoding.md R109): what a row of the opcode table decodes to has that row's opcode. -/

namespace Sys2Proof

open Sys2Proof.Claims

/-- An instruction whose encoding is the byte and its operand bytes has that opcode (R81). -/
theorem hasOpcode_of_encode {i : Instr} {op : Byte} {l : List Byte} (h : encode i = op :: l) : HasOpcode i op := by
  rw [HasOpcode, h, List.head?_cons]

/-- What decodes after an opcode byte has that opcode: its row encodes to the row's byte first (R81, R99). -/
theorem hasOpcode_of_decode {op : Byte} {l r : List Byte} {i : Instr} (h : decode (op :: l) = .ok (i, r)) :
    HasOpcode i op := by
  cases hl : opcodeTable.lookup op with
  | none => simp [decode_unlisted hl] at h
  | some sh =>
    have hrow : RowMakesItsEncoding (op, sh) := opcodeTable_makes_encodings _ (lookup_row hl)
    simp only [decode, hl] at h
    cases sh with
    | bare j => cases h; exact hasOpcode_of_encode hrow.1
    | byte f =>
      match l, h with
      | v :: _, rfl => exact hasOpcode_of_encode (hrow v).1
    | disp f =>
      match l, h with
      | v :: _, rfl => exact hasOpcode_of_encode (hrow (sext8 v)).1
    | word f =>
      match l, h with
      | lo :: hi :: _, rfl => exact hasOpcode_of_encode (hrow (wordOf hi lo)).1

/-- Settles O3: R101's list is the bytes without a row, so a byte on it is refused and any other has a row to decode by. -/
theorem everyByteIsAnInstructionOrIllegal : Obligations.EveryByteIsAnInstructionOrIllegal := by
  intro op b1 b2 rest
  rw [← opcodeTable_lookup_isNone]
  cases hl : opcodeTable.lookup op with
  | none => exact ⟨fun _ => decode_unlisted hl _, nofun⟩
  | some sh =>
    obtain ⟨i, r, hd⟩ := decode_listed hl b1 b2 rest
    exact ⟨nofun, fun _ => ⟨i, r, hd, hasOpcode_of_decode hd⟩⟩

end Sys2Proof
end

section
/-! PROOFS. The interrupt latch over a step (40_cycle.md R114, 60_exceptions.md R191, R195): neither an instruction nor
the illegal path writes it, opcode `$40` clears the in-service flag, and the interrupt check delivers one request or
none. -/

namespace Sys2Proof

open Sys2Proof.Machine

namespace Machine

/-- No instruction's own effect writes the interrupt latch (10_state.md R31, R32). -/
theorem exec_latch {i : Instr} {s t : State} (h : exec i s = .next t) :
    t.pending = s.pending ∧ t.inService = s.inService := by
  obtain ⟨t', ht, e⟩ := exec_next i s
  rw [h] at ht
  cases ht
  rw [e]
  exact ⟨rfl, rfl⟩

namespace State

@[simp] theorem afterOperands_pending (s : State) (i : Instr) : (s.afterOperands i).pending = s.pending := rfl

@[simp] theorem afterOperands_inService (s : State) (i : Instr) : (s.afterOperands i).inService = s.inService := rfl

@[simp] theorem illegalStep_pending (s : State) : s.illegalStep.pending = s.pending := rfl

@[simp] theorem illegalStep_inService (s : State) : s.illegalStep.inService = s.inService := rfl

/-- A request that is due is pending (60_exceptions.md R191). -/
theorem pending_pos_of_interruptDue {s : State} (h : s.interruptDue = true) : 0 < s.pending := by
  simp only [interruptDue, Bool.and_eq_true, decide_eq_true_eq] at h
  exact h.1.1

/-- The interrupt check does nothing, or delivers exactly one request and marks it in service (60_exceptions.md R191,
R193, R195). -/
theorem checkIrq_cases (s : State) :
    s.checkIrq = s ∨ (s.checkIrq.pending + 1 = s.pending ∧ s.checkIrq.inService = true) := by
  cases hdue : s.interruptDue
  · exact .inl (by simp [checkIrq, hdue])
  · have hpending := pending_pos_of_interruptDue hdue
    rw [checkIrq, if_pos hdue, enterInterrupt_next]
    exact .inr ⟨Nat.sub_add_cancel hpending, rfl⟩

/-- The end of a step leaves the count alone and clears the in-service flag after opcode `$40`, or delivers exactly one
request (40_cycle.md R114, R115). -/
theorem endOfStep_latch (s : State) (op : Byte) :
    ((s.endOfStep op).pending = s.pending ∧
      (s.endOfStep op).inService = if op = 0x40 then false else s.inService) ∨
    ((s.endOfStep op).pending + 1 = s.pending ∧ (s.endOfStep op).inService = true) := by
  rw [endOfStep, rtiFlagStep_next]
  obtain hnone | hdelivered := checkIrq_cases { s with inService := if op = 0x40 then false else s.inService }
  · rw [hnone]
    exact .inl ⟨rfl, rfl⟩
  · exact .inr hdelivered

end State

/-- Settles O51: the instruction or the illegal path leaves the latch alone, so the end of the step decides. -/
theorem stepDeliversAtMostOneRequest : Obligations.StepDeliversAtMostOneRequest := by
  intro s t hstep
  obtain ⟨u, hu, hbody⟩ := step_next s
  rw [hstep] at hu
  cases hu
  have hlatch : u.pending = s.pending ∧ u.inService = s.inService := by
    obtain ⟨i, rest, -, hexec⟩ | ⟨-, rfl⟩ := hbody
    · simpa using exec_latch hexec
    · simp
  obtain ⟨hpending, hservice⟩ := hlatch
  rw [← hpending, ← hservice]
  exact u.endOfStep_latch _

end Machine

end Sys2Proof
end

section
/-! PROOFS. Loads and stores in every form (41_load_store.md R125 to R130): a form runs its mnemonic's operation on its
operand, and a store is one write through the mode, seen where RAM serves the address. -/

namespace Sys2Proof

open Sys2Proof.Machine Sys2Proof.Claims

namespace Machine

/-- Every form on the list has its opcode, and its instruction runs the mnemonic's operation on the form's operand. -/
def FormsRun (forms : List Form) (operation : Operand → State → State) : Prop :=
  ∀ p ∈ forms, HasOpcode p.2.1 p.1 ∧ ∀ s, exec p.2.1 s = .next (operation p.2.2 s)

/-- Every form on the list has its opcode and an operand in memory, and its instruction writes the register there. -/
def FormsStore (forms : List Form) (register : State → Byte) : Prop :=
  ∀ p ∈ forms, HasOpcode p.2.1 p.1 ∧
    ∀ s, ∃ ea, s.resolve p.2.2 = .mem ea ∧ exec p.2.1 s = .next (s.memWrite ea (register s))

theorem ldaForms_run (v b : Byte) (w : Word) : FormsRun (ldaForms v b w) lda := by
  intro p hp
  fin_cases hp <;> exact ⟨rfl, fun _ => rfl⟩

theorem ldxForms_run (v b : Byte) (w : Word) : FormsRun (ldxForms v b w) ldx := by
  intro p hp
  fin_cases hp <;> exact ⟨rfl, fun _ => rfl⟩

theorem ldyForms_run (v b : Byte) (w : Word) : FormsRun (ldyForms v b w) ldy := by
  intro p hp
  fin_cases hp <;> exact ⟨rfl, fun _ => rfl⟩

theorem staForms_store (b : Byte) (w : Word) : FormsStore (staForms b w) State.a := by
  intro p hp
  fin_cases hp <;> exact ⟨rfl, fun _ => ⟨_, rfl, rfl⟩⟩

theorem stxForms_store (b : Byte) (w : Word) : FormsStore (stxForms b w) State.x := by
  intro p hp
  fin_cases hp <;> exact ⟨rfl, fun _ => ⟨_, rfl, rfl⟩⟩

theorem styForms_store (b : Byte) (w : Word) : FormsStore (styForms b w) State.y := by
  intro p hp
  fin_cases hp <;> exact ⟨rfl, fun _ => ⟨_, rfl, rfl⟩⟩

/-- `setFlagsNZ` in numbers (40_cycle.md R117). -/
theorem setNZ_eq_nz (f : Flags) (v : Byte) : f.setNZ v = nz f v := by
  rw [Flags.setNZ, beq_zero, getLsbD_seven, nz]

namespace State

/-- A read that RAM serves gives the RAM byte (20_memory.md R56). -/
theorem memRead_of_servedBy_ram {s : State} {a : Word} (h : s.servedBy a = .ram) : s.memRead a = s.ramByte a := by
  rw [memRead, h]

/-- The port is served by RAM in every mode: it lies in zone 0 (R55). -/
theorem servedBy_port (s : State) : s.servedBy portAddr = .ram := by
  rw [servedBy, zoneOf_low (by decide), chunkFor_z0]

/-- A write leaves a read that an overlay serves before and after it alone (R56, R57). -/
theorem memRead_memWrite_overlay {s : State} {a b : Word} {v : Byte}
    (hserved : (s.memWrite a v).servedBy b = s.servedBy b) (hoverlay : s.servedBy b ≠ .ram) :
    (s.memWrite a v).memRead b = s.memRead b := by
  rw [memRead, memRead, hserved]
  cases h : s.servedBy b with
  | ram => exact absurd h hoverlay
  | _ => rfl

/-- A read of the address just written sees the store where RAM serves it, and the overlay as before where not (R57). -/
theorem memRead_memWrite_same (s : State) (a : Word) (v : Byte) :
    (s.memWrite a v).memRead a = if (s.memWrite a v).servedBy a = .ram then v else s.memRead a := by
  split
  next hram => rw [memRead_of_servedBy_ram hram, ramByte_memWrite_same]
  next hoverlay =>
    have hport : a ≠ portAddr := by
      rintro rfl
      exact hoverlay (servedBy_port _)
    have hserved := s.servedBy_memWrite hport v a
    exact memRead_memWrite_overlay hserved (hserved ▸ hoverlay)

end State

/-- A write through the mode is a store at its address: the byte, the rest of RAM, the reads, and the mode by the port. -/
theorem storesAt_memWrite (s : State) (ea : Word) (v : Byte) : StoresAt s (s.memWrite ea v) (.mem ea) v := by
  refine ⟨s.ramByte_memWrite_same ea v, fun a ha => ?_, s.memRead_memWrite_same ea v,
    fun hport a ha => s.memRead_memWrite_other hport ha v, ?_⟩
  · rw [State.ramByte_memWrite, if_neg ha]
  · rintro rfl
    exact s.toNat_mode_memWrite_port v

/-- What a form that stores a register does: RAM alone changes, by a store at the operand's address (R128 to R130). -/
theorem FormsStore.storesAt {forms : List Form} {register : State → Byte} (h : FormsStore forms register) (s : State) :
    ∀ p ∈ forms, HasOpcode p.2.1 p.1 ∧ ∃ t, exec p.2.1 s = .next t ∧ t = { s with ram := t.ram } ∧
      StoresAt s t (s.resolve p.2.2) (register s) := by
  intro p hp
  obtain ⟨hop, hexec⟩ := h p hp
  obtain ⟨ea, hresolve, hnext⟩ := hexec s
  rw [hresolve]
  exact ⟨hop, _, hnext, s.memWrite_eq ea (register s), storesAt_memWrite s ea (register s)⟩

/-- Settles O23: each form is a store of its register at its operand's address. -/
theorem storesPutTheRegisterInRam : Obligations.StoresPutTheRegisterInRam :=
  fun s b w => ⟨(staForms_store b w).storesAt s, (stxForms_store b w).storesAt s, (styForms_store b w).storesAt s⟩

/-- Settles O22: each form runs its load, which writes the register and, by `setNZ_eq_nz`, Z and N. -/
theorem loadsPutTheOperandInTheRegister : Obligations.LoadsPutTheOperandInTheRegister := by
  refine fun s v b w => ⟨fun p hp => ?lda, fun p hp => ?ldx, fun p hp => ?ldy⟩
  case lda =>
    obtain ⟨hop, hexec⟩ := ldaForms_run v b w p hp
    exact ⟨hop, by rw [hexec, lda_next, setNZ_eq_nz]⟩
  case ldx =>
    obtain ⟨hop, hexec⟩ := ldxForms_run v b w p hp
    exact ⟨hop, by rw [hexec, ldx_next, setNZ_eq_nz]⟩
  case ldy =>
    obtain ⟨hop, hexec⟩ := ldyForms_run v b w p hp
    exact ⟨hop, by rw [hexec, ldy_next, setNZ_eq_nz]⟩

end Machine

end Sys2Proof
end

section
/-! PROOFS. Register transfers and stack operations (42_transfer_stack.md R131 to R140) in numbers: the slots below and
above SP, the status byte, and the frame of a push. -/

namespace Sys2Proof

open Sys2Proof.Machine Sys2Proof.Claims

namespace Machine

/-- The slot `k` below SP, at most a page away, is the stack byte of SP less `k` modulo 256 (R17). -/
theorem slotBelow_eq_stackAddr (s : State) {k : Nat} (hk : k ≤ 256) :
    slotBelow s k = stackAddr (s.sp - BitVec.ofNat 8 k) := by
  have := s.sp.isLt
  apply BitVec.eq_of_toNat_eq
  rw [toNat_stackAddr, slotBelow, BitVec.toNat_ofNat, BitVec.toNat_sub, BitVec.toNat_ofNat]
  omega

/-- The slot `k` above SP is the stack byte of SP plus `k` modulo 256 (R17). -/
theorem slotAbove_eq_stackAddr (s : State) (k : Nat) : slotAbove s k = stackAddr (s.sp + BitVec.ofNat 8 k) := by
  apply BitVec.eq_of_toNat_eq
  rw [toNat_stackAddr, slotAbove, BitVec.toNat_ofNat, BitVec.toNat_add, BitVec.toNat_ofNat]
  omega

/-- SP after a pull, in numbers (R119). -/
theorem add_one_eq_ofNat (sp : Byte) : sp + 1 = BitVec.ofNat 8 (sp.toNat + 1) := by bv_omega

/-- The slot a pull reads (R119). -/
theorem slotAbove_one (s : State) : slotAbove s 1 = stackAddr (s.sp + 1) := slotAbove_eq_stackAddr s 1

namespace Flags

/-- The packed status byte in place values (R28). -/
theorem sr_eq_statusByte (f : Flags) : f.sr = statusByte f := by
  obtain ⟨c, z, i, d, b, v, n⟩ := f
  revert c z i d b v n
  decide

/-- The unpacked flags are the byte's bits (R29). -/
theorem ofSr_eq_flagsOfByte (v : Byte) : ofSr v = flagsOfByte v := rfl

end Flags

/-- A push writes the slot SP designated and no other byte, and every read outside that slot is as before (R118). -/
theorem pushesOnly_push (s : State) (v : Byte) : PushesOnly s (s.push v) [v] := by
  have hslot : slotBelow s 0 = stackAddr s.sp := by simpa using slotBelow_eq_stackAddr s (Nat.zero_le 256)
  refine ⟨fun k w hw => ?written, fun a ha => ?frame⟩
  case written =>
    obtain ⟨rfl, rfl⟩ : k = 0 ∧ v = w := by simpa [List.getElem?_singleton] using hw
    rw [hslot, State.ramByte_push, if_pos rfl]
  case frame =>
    have hne : a ≠ stackAddr s.sp := hslot ▸ ha 0 (by simp)
    exact ⟨by rw [State.ramByte_push, if_neg hne], s.memRead_push v hne⟩

/-- A push changes RAM and SP alone, and SP goes down by one modulo 256 (R118). -/
theorem push_next_ofNat (s : State) (v : Byte) :
    s.push v = { s with ram := (s.push v).ram, sp := BitVec.ofNat 8 (s.sp.toNat + 255) } := by
  have hsp : s.sp - 1 = BitVec.ofNat 8 (s.sp.toNat + 255) := by bv_omega
  rw [← hsp]
  exact s.push_next v

/-- PLA in numbers (42_transfer_stack.md R139). -/
theorem pla_eq (s : State) : pla s =
    { s with a := s.ramByte (slotAbove s 1), sp := BitVec.ofNat 8 (s.sp.toNat + 1)
             flags := nz s.flags (s.ramByte (slotAbove s 1)) } := by
  rw [pla_next, setNZ_eq_nz, slotAbove_one, add_one_eq_ofNat]

/-- PLP in numbers (42_transfer_stack.md R140). -/
theorem plp_eq (s : State) : plp s =
    { s with sp := BitVec.ofNat 8 (s.sp.toNat + 1), flags := flagsOfByte (s.ramByte (slotAbove s 1)) } := by
  rw [plp_next, Flags.ofSr_eq_flagsOfByte, slotAbove_one, add_one_eq_ofNat]

/-- Settles O25: each instruction is one push, of A or of the status byte. -/
theorem pushesWriteTheStack : Obligations.PushesWriteTheStack := by
  refine fun s => ⟨⟨rfl, s.push s.a, rfl, pushesOnly_push s s.a, push_next_ofNat s s.a⟩,
    rfl, s.push s.sr, rfl, ?_, push_next_ofNat s s.sr⟩
  rw [← Flags.sr_eq_statusByte]
  exact pushesOnly_push s s.sr

/-- Settles O24: each transfer copies its register, and all but TXS then write Z and N by `setNZ_eq_nz`. -/
theorem transfersCopyTheRegister : Obligations.TransfersCopyTheRegister := by
  intro s
  simp only [← setNZ_eq_nz]
  exact ⟨⟨rfl, rfl⟩, ⟨rfl, rfl⟩, ⟨rfl, rfl⟩, ⟨rfl, rfl⟩, ⟨rfl, rfl⟩, ⟨rfl, rfl⟩⟩

/-- Settles O26: the two pulls in numbers. -/
theorem pullsReadTheStack : Obligations.PullsReadTheStack :=
  fun s => ⟨⟨rfl, congrArg Host.Outcome.next (pla_eq s)⟩, rfl, congrArg Host.Outcome.next (plp_eq s)⟩

end Machine

end Sys2Proof
end

section
/-! PROOFS. The delivery at the end of a step (40_cycle.md R110, R115; 60_exceptions.md R190, R191): the interrupt check
by its condition, and the whole step of an instruction that has no operand bytes. -/

namespace Sys2Proof

open Sys2Proof.Machine Sys2Proof.Claims

/-- A row without operand bytes decodes to its instruction, whatever follows (30_encoding.md R109). -/
theorem decode_bare {op : Byte} {i : Instr} (h : opcodeTable.lookup op = some (.bare i)) (l : List Byte) :
    decode (op :: l) = .ok (i, l) := by
  simp only [decode, h]

namespace Machine

namespace State

/-- The delivery condition in the statements' terms (60_exceptions.md R190, R191). -/
theorem interruptDue_iff (s : State) : s.interruptDue = true ↔ DeliveryDue s := by
  simp [interruptDue, DeliveryDue, imp_iff_not_or, and_assoc]

/-- A request that is due is delivered (R191). -/
theorem checkIrq_of_deliveryDue {s : State} (h : DeliveryDue s) : s.checkIrq = s.enterInterrupt := by
  rw [checkIrq, if_pos (s.interruptDue_iff.2 h)]

/-- Where no request is due the check leaves the state as it was (R191). -/
theorem checkIrq_of_not_deliveryDue {s : State} (h : ¬ DeliveryDue s) : s.checkIrq = s := by
  rw [checkIrq, if_neg (mt s.interruptDue_iff.1 h)]

/-- The interrupt check alone follows an instruction other than RTI (40_cycle.md R114, R115). -/
theorem endOfStep_of_ne_rti (s : State) {op : Byte} (h : op ≠ 0x40) : s.endOfStep op = s.checkIrq := by
  rw [endOfStep, rtiFlagStep, if_neg h]

end State

/-- The step of an instruction without operand bytes: its own effect from the state with PC at the opcode and no
signals, then the end of the step (40_cycle.md R110). -/
theorem step_of_bare {s t : State} {op : Byte} {i : Instr} (hop : s.memRead (s.pc + 1) = op)
    (hrow : opcodeTable.lookup op = some (.bare i)) (hmode : i.mode.operandBytes = 0)
    (hexec : exec i { s with pc := s.pc + 1, signals := [] } = .next t) : step s = .next (t.endOfStep op) := by
  have hdecode : decode s.fetchBytes = .ok (i, [s.memRead (s.pc + 2), s.memRead (s.pc + 3)]) := by
    rw [State.fetchBytes, hop, decode_bare hrow]
  have hentry : (s.setSignals []).afterOperands i = { s with pc := s.pc + 1, signals := [] } := by
    rw [State.afterOperands, hmode]
    simp [State.setPc, State.setSignals]
  obtain ⟨u, hstep, ⟨j, rest, hj, hu⟩ | ⟨⟨e, he⟩, -⟩⟩ := step_next s
  · rw [hdecode] at hj
    cases hj
    rw [hentry, hexec] at hu
    cases hu
    rw [hstep, hop]
  · rw [hdecode] at he
    cases he

/-- Settles O43: each instruction's own effect, then the interrupt check on the I flag it has just written. -/
theorem maskChangesDecideDeliveryInTheSameStep : Obligations.MaskChangesDecideDeliveryInTheSameStep := by
  refine fun s => ⟨fun hop => ?cli, fun hop => ?sei, fun hop => ?plp⟩
  case cli =>
    refine ⟨_, rfl, ?_, fun hpending hgate => ?_, fun hnone => ?_⟩
    · rw [step_of_bare hop rfl rfl rfl, State.endOfStep_of_ne_rti _ (by decide)]
      rfl
    · exact State.checkIrq_of_deliveryDue ⟨hpending, rfl, hgate⟩
    · exact State.checkIrq_of_not_deliveryDue fun hdue => hdue.1.ne' hnone
  case sei =>
    rw [step_of_bare hop rfl rfl rfl, State.endOfStep_of_ne_rti _ (by decide), State.checkIrq_of_not_deliveryDue]
    · rfl
    · rintro ⟨-, hmask, -⟩
      cases hmask
  case plp =>
    refine ⟨_, rfl, ?_, fun hpending hgate hbit => State.checkIrq_of_deliveryDue ⟨hpending, hbit, hgate⟩⟩
    rw [step_of_bare hop rfl rfl rfl, State.endOfStep_of_ne_rti _ (by decide), plp_eq]
    rfl

end Machine

end Sys2Proof
end

section
/-! PROOFS. Packed BCD, and ADC and SBC in numbers (43_arith_logic.md R141, R142, R144, R145): the byte, C and V of each,
binary and decimal. -/

namespace Sys2Proof

open Sys2Proof.Machine Sys2Proof.Claims

namespace Machine

/-- The value of a packed byte, nibble by nibble (R141). -/
theorem fromBCD_eq_bcdValue (b : Byte) : fromBCD b = bcdValue b := by
  have high : (b >>> 4).toNat = b.toNat / 16 := by rw [BitVec.toNat_ushiftRight, Nat.shiftRight_eq_div_pow]
  have low : (b &&& 0x0F).toNat = b.toNat % 16 := Nat.and_two_pow_sub_one_eq_mod _ 4
  rw [fromBCD, high, low, bcdValue]

/-- The packed byte in place values (R142): the two digits share no bit of it, so OR is addition. -/
theorem toNat_toBCD (n : Nat) : (toBCD n).toNat = bcdDigits n := by
  have high : (BitVec.ofNat 8 (n / 10 % 10) <<< 4).toNat = 2 ^ 4 * (n / 10 % 10) := by
    rw [BitVec.toNat_shiftLeft, BitVec.toNat_ofNat, Nat.shiftLeft_eq]
    omega
  have low : (BitVec.ofNat 8 (n % 10)).toNat = n % 10 := by
    rw [BitVec.toNat_ofNat]
    omega
  rw [toBCD, BitVec.toNat_or, high, low, ← Nat.two_pow_add_eq_or_of_lt (by omega), bcdDigits]

/-- The digits `toBCD` writes depend on the low two decimal digits alone (R142). -/
theorem bcdDigits_mod_hundred (n : Nat) : bcdDigits (n % 100) = bcdDigits n := by
  rw [bcdDigits, bcdDigits]
  omega

/-- Settles O19: each conversion in place values. -/
theorem bcdConversionsFollowTheirFormulas : Obligations.BcdConversionsFollowTheirFormulas := by
  refine ⟨fromBCD_eq_bcdValue, fun n => ⟨toNat_toBCD n, BitVec.eq_of_toNat_eq ?_⟩⟩
  rw [toNat_toBCD, toNat_toBCD, bcdDigits_mod_hundred]

/-- The signed overflow test is the range of a signed byte (R144, R145). -/
theorem signedOverflow_iff (t : Int) : signedOverflow t = true ↔ OutOfRange t := by
  simp [signedOverflow, OutOfRange]

/-- The V that ADC and SBC write follows the rule of V: `Unchanged` keeps it in decimal mode, and in every other case it is
the signed overflow (D22). -/
theorem overflowRule_of_v {rule : DecimalVRule} {f g : Flags} {t : Int}
    (hv : g.v = if f.d then decimalOverflow rule f.v t else signedOverflow t) : OverflowRule rule f g t := by
  cases hd : f.d with
  | false => simp [OverflowRule, hd, hv, signedOverflow_iff]
  | true =>
    cases rule with
    | unchanged => simp [OverflowRule, hd, hv, decimalOverflow]
    | binary => simp [OverflowRule, hd, hv, decimalOverflow, signedOverflow_iff]

section

variable (rule : DecimalVRule) (f : Flags) (a m : Byte)

/-- V after ADC is from the signed sum (R144). -/
theorem addWithCarry_v : (addWithCarry rule f a m).2.v =
    if f.d then decimalOverflow rule f.v (a.toInt + m.toInt + bitNat f.c)
    else signedOverflow (a.toInt + m.toInt + bitNat f.c) := by
  unfold addWithCarry
  split <;> rfl

/-- V after SBC is from the signed difference (R145). -/
theorem subWithBorrow_v : (subWithBorrow rule f a m).2.v =
    if f.d then decimalOverflow rule f.v (a.toInt - m.toInt - (1 - bitNat f.c : Nat))
    else signedOverflow (a.toInt - m.toInt - (1 - bitNat f.c : Nat)) := by
  unfold subWithBorrow
  split <;> rfl

variable {f}

/-- The byte and C of a binary ADC, from the unsigned sum (R144). -/
theorem addWithCarry_binary (hd : f.d = false) :
    (addWithCarry rule f a m).1.toNat = (a.toNat + m.toNat + bitNat f.c) % 256 ∧
    ((addWithCarry rule f a m).2.c = true ↔ 255 < a.toNat + m.toNat + bitNat f.c) := by
  rw [addWithCarry, hd]
  exact ⟨BitVec.toNat_ofNat .., decide_eq_true_iff⟩

/-- The byte and C of a decimal ADC, from the sum of the packed values (R144). -/
theorem addWithCarry_decimal (hd : f.d = true) :
    (addWithCarry rule f a m).1.toNat = bcdDigits (bcdValue a + bcdValue m + bitNat f.c) ∧
    ((addWithCarry rule f a m).2.c = true ↔ 99 < bcdValue a + bcdValue m + bitNat f.c) := by
  rw [addWithCarry, hd, fromBCD_eq_bcdValue, fromBCD_eq_bcdValue]
  exact ⟨toNat_toBCD _, decide_eq_true_iff⟩

/-- The 16-bit difference of two bytes and a borrow, modulo 65536 (R145). -/
theorem toNat_zext16_sub_sub {borrow : Nat} (hborrow : borrow ≤ 1) :
    (zext16 a - zext16 m - BitVec.ofNat 16 borrow).toNat = (a.toNat + 65536 - m.toNat - borrow) % 65536 := by
  have := a.isLt
  have := m.isLt
  rw [BitVec.toNat_sub, BitVec.toNat_sub, toNat_zext16, toNat_zext16, BitVec.toNat_ofNat]
  omega

/-- The byte and C of a binary SBC (R145): the 16-bit difference stays in a byte exactly when nothing is borrowed. -/
theorem subWithBorrow_binary (hd : f.d = false) :
    (subWithBorrow rule f a m).1.toNat = (a.toNat + 256 - m.toNat - (1 - bitNat f.c)) % 256 ∧
    ((subWithBorrow rule f a m).2.c = true ↔ m.toNat + (1 - bitNat f.c) ≤ a.toNat) := by
  have := a.isLt
  have := m.isLt
  have difference := toNat_zext16_sub_sub a m (Nat.sub_le 1 (bitNat f.c))
  rw [subWithBorrow, hd]
  constructor
  · refine (toNat_loByte _).trans ?_
    rw [difference]
    omega
  · refine decide_eq_true_iff.trans (BitVec.le_def.trans ?_)
    rw [difference]
    change _ ≤ 255 ↔ _
    omega

/-- The byte and C of a decimal SBC, from the difference of the packed values (R145). -/
theorem subWithBorrow_decimal (hd : f.d = true) :
    (subWithBorrow rule f a m).1.toNat =
      bcdDigits (((bcdValue a : Int) - bcdValue m - (1 - bitNat f.c : Nat)) % 100).toNat ∧
    ((subWithBorrow rule f a m).2.c = true ↔ bcdValue m + (1 - bitNat f.c) ≤ bcdValue a) := by
  rw [subWithBorrow, hd, fromBCD_eq_bcdValue, fromBCD_eq_bcdValue]
  refine ⟨toNat_toBCD _, decide_eq_true_iff.trans ?_⟩
  omega

variable (f)

/-- ADC's byte and flags satisfy its rule (R144). -/
theorem addsWithCarry : AddsWithCarry rule f a m (addWithCarry rule f a m).1 (addWithCarry rule f a m).2 := by
  refine ⟨?_, overflowRule_of_v (addWithCarry_v rule f a m), addWithCarry_binary rule a m, addWithCarry_decimal rule a m⟩
  rw [← setNZ_eq_nz]
  exact addWithCarry_flags rule f a m

/-- SBC's byte and flags satisfy its rule (R145). -/
theorem subtractsWithBorrow :
    SubtractsWithBorrow rule f a m (subWithBorrow rule f a m).1 (subWithBorrow rule f a m).2 := by
  refine ⟨?_, overflowRule_of_v (subWithBorrow_v rule f a m), subWithBorrow_binary rule a m,
    subWithBorrow_decimal rule a m⟩
  rw [← setNZ_eq_nz]
  exact subWithBorrow_flags rule f a m

end

theorem adcForms_run (v b : Byte) (w : Word) : FormsRun (adcForms v b w) adc := by
  intro p hp
  fin_cases hp <;> exact ⟨rfl, fun _ => rfl⟩

theorem sbcForms_run (v b : Byte) (w : Word) : FormsRun (sbcForms v b w) sbc := by
  intro p hp
  fin_cases hp <;> exact ⟨rfl, fun _ => rfl⟩

/-- Settles O27: each form runs ADC, which writes A and the flags by `addsWithCarry`. -/
theorem adcAddsWithCarry : Obligations.AdcAddsWithCarry := by
  intro s v b w p hp
  obtain ⟨hop, hexec⟩ := adcForms_run v b w p hp
  exact ⟨hop, _, hexec s, adc_next s p.2.2, addsWithCarry ..⟩

/-- Settles O28: each form runs SBC, which writes A and the flags by `subtractsWithBorrow`. -/
theorem sbcSubtractsWithBorrow : Obligations.SbcSubtractsWithBorrow := by
  intro s v b w p hp
  obtain ⟨hop, hexec⟩ := sbcForms_run v b w p hp
  exact ⟨hop, _, hexec s, sbc_next s p.2.2, subtractsWithBorrow ..⟩

end Machine

end Sys2Proof
end

section
/-! PROOFS. Logic, BIT, compares, increments and decrements (43_arith_logic.md R143, R146 to R158): the bits and numbers
of the byte or flags each operation writes, and the store of INC and DEC. -/

namespace Sys2Proof

open Sys2Proof.Machine Sys2Proof.Claims

/-- Bit 6 of a byte, as a comparison of its unsigned value. -/
theorem getLsbD_six (v : Byte) : v.getLsbD 6 = decide (64 ≤ v.toNat % 128) := by
  rw [BitVec.getLsbD, Nat.testBit_eq_decide_div_mod_eq, decide_eq_decide]
  omega

namespace Machine

theorem andForms_run (v b : Byte) (w : Word) : FormsRun (andForms v b w) andA := by
  intro p hp
  fin_cases hp <;> exact ⟨rfl, fun _ => rfl⟩

theorem oraForms_run (v b : Byte) (w : Word) : FormsRun (oraForms v b w) oraA := by
  intro p hp
  fin_cases hp <;> exact ⟨rfl, fun _ => rfl⟩

theorem eorForms_run (v b : Byte) (w : Word) : FormsRun (eorForms v b w) eorA := by
  intro p hp
  fin_cases hp <;> exact ⟨rfl, fun _ => rfl⟩

theorem bitForms_run (b : Byte) (w : Word) : FormsRun (bitForms b w) bitA := by
  intro p hp
  fin_cases hp <;> exact ⟨rfl, fun _ => rfl⟩

theorem cmpForms_run (v b : Byte) (w : Word) : FormsRun (cmpForms v b w) cmp := by
  intro p hp
  fin_cases hp <;> exact ⟨rfl, fun _ => rfl⟩

theorem cpxForms_run (v b : Byte) (w : Word) : FormsRun (cpxForms v b w) cpx := by
  intro p hp
  fin_cases hp <;> exact ⟨rfl, fun _ => rfl⟩

theorem cpyForms_run (v b : Byte) (w : Word) : FormsRun (cpyForms v b w) cpy := by
  intro p hp
  fin_cases hp <;> exact ⟨rfl, fun _ => rfl⟩

/-- What a form that combines A with its operand bit by bit does: A takes the combined byte, Z and N follow it, and each
bit is the combination of the two bits (R146 to R148). -/
theorem FormsRun.combinesBits {forms : List Form} {operation : Operand → State → State} (h : FormsRun forms operation)
    {combine : Byte → Byte → Byte} {bit : Bool → Bool → Bool}
    (hnext : ∀ o s, operation o s =
      { s with a := combine s.a (s.operand o), flags := s.flags.setNZ (combine s.a (s.operand o)) })
    (hbit : ∀ a m k, (combine a m).toNat.testBit k = bit (a.toNat.testBit k) (m.toNat.testBit k)) (s : State) :
    ∀ p ∈ forms, HasOpcode p.2.1 p.1 ∧ ∃ t, exec p.2.1 s = .next t ∧ t = { s with a := t.a, flags := nz s.flags t.a } ∧
      ∀ k, t.a.toNat.testBit k = bit (s.a.toNat.testBit k) ((s.operand p.2.2).toNat.testBit k) := by
  intro p hp
  obtain ⟨hop, hexec⟩ := h p hp
  specialize hexec s
  rw [hnext, setNZ_eq_nz] at hexec
  exact ⟨hop, _, hexec, rfl, hbit _ _⟩

/-- Settles O29: each form combines A with its operand, and the bits of AND, OR and XOR are the library's. -/
theorem logicalOperationsActOnEachBit : Obligations.LogicalOperationsActOnEachBit :=
  fun s v b w =>
    ⟨(andForms_run v b w).combinesBits (fun o s => andA_next s o)
        (fun _ _ _ => by rw [BitVec.toNat_and, Nat.testBit_and]) s,
      (oraForms_run v b w).combinesBits (fun o s => oraA_next s o)
        (fun _ _ _ => by rw [BitVec.toNat_or, Nat.testBit_or]) s,
      (eorForms_run v b w).combinesBits (fun o s => eorA_next s o)
        (fun _ _ _ => by rw [BitVec.toNat_xor, Nat.testBit_xor]) s⟩

/-- BIT's flags in numbers (R149). -/
theorem bitTest_eq (f : Flags) (a m : Byte) : f.bitTest a m =
    { f with z := decide (a.toNat &&& m.toNat = 0), n := decide (128 ≤ m.toNat), v := decide (64 ≤ m.toNat % 128) } := by
  rw [Flags.bitTest, beq_zero, BitVec.toNat_and, getLsbD_seven, getLsbD_six]

/-- The flags of a compare in numbers (R143). -/
theorem compare_eq_comparedFlags (f : Flags) (r m : Byte) : f.compare r m = comparedFlags f r m := by
  have carry : decide (m ≤ r) = decide (m.toNat ≤ r.toNat) := rfl
  have zero : (r == m) = decide (r.toNat = m.toNat) := decide_eq_decide.2 BitVec.toNat_inj.symm
  have negative : (r - m).getLsbD 7 = decide (128 ≤ (r.toNat + 256 - m.toNat) % 256) := by
    rw [getLsbD_seven, decide_eq_decide, BitVec.toNat_sub]
    omega
  rw [Flags.compare, comparedFlags, carry, zero, negative]

/-- Settles O30: each form runs BIT, whose flags are `bitTest_eq`. -/
theorem bitCopiesTheOperandsHighBits : Obligations.BitCopiesTheOperandsHighBits := by
  intro s b w p hp
  obtain ⟨hop, hexec⟩ := bitForms_run b w p hp
  refine ⟨hop, ?_⟩
  rw [hexec, bitA, bitTest_eq]
  rfl

/-- What a compare form does: the flags of the compare of its register with its operand, and nothing else. -/
theorem FormsRun.compares {forms : List Form} {operation : Operand → State → State} (h : FormsRun forms operation)
    {register : State → Byte}
    (hnext : ∀ o s, operation o s = s.setFlags (s.flags.compare (register s) (s.operand o))) (s : State) :
    ∀ p ∈ forms, HasOpcode p.2.1 p.1 ∧
      exec p.2.1 s = .next { s with flags := comparedFlags s.flags (register s) (s.operand p.2.2) } := by
  intro p hp
  obtain ⟨hop, hexec⟩ := h p hp
  refine ⟨hop, ?_⟩
  rw [hexec, hnext, compare_eq_comparedFlags]
  rfl

/-- Settles O31: each form compares its own register. -/
theorem comparesWriteOnlyFlags : Obligations.ComparesWriteOnlyFlags :=
  fun s v b w => ⟨(cmpForms_run v b w).compares (fun _ _ => rfl) s, (cpxForms_run v b w).compares (fun _ _ => rfl) s,
    (cpyForms_run v b w).compares (fun _ _ => rfl) s⟩

/-- A byte less one is the byte of its value plus 255 (R154). -/
theorem sub_one_eq_ofNat (m : Byte) : m - 1 = BitVec.ofNat 8 (m.toNat + 255) := by bv_omega

/-- A byte less one counts down modulo 256 (R157, R158). -/
theorem toNat_sub_one (m : Byte) : (m - 1).toNat = (m.toNat + 255) % 256 := by
  rw [sub_one_eq_ofNat, BitVec.toNat_ofNat]

/-- Every form on the list has its opcode and an operand in memory, and its instruction writes back there what `update`
makes of the operand, with Z and N of it. -/
def FormsUpdate (forms : List Form) (update : Byte → Byte) : Prop :=
  ∀ p ∈ forms, HasOpcode p.2.1 p.1 ∧
    ∀ s, ∃ ea, s.resolve p.2.2 = .mem ea ∧
      exec p.2.1 s = .next ((s.memWrite ea (update (s.operand p.2.2))).setNZ (update (s.operand p.2.2)))

theorem incForms_update (b : Byte) (w : Word) : FormsUpdate (incForms b w) (· + 1) := by
  intro p hp
  fin_cases hp <;> exact ⟨rfl, fun _ => ⟨_, rfl, rfl⟩⟩

theorem decForms_update (b : Byte) (w : Word) : FormsUpdate (decForms b w) (· - 1) := by
  intro p hp
  fin_cases hp <;> exact ⟨rfl, fun _ => ⟨_, rfl, rfl⟩⟩

/-- What a form that updates its memory operand does: the new byte is stored at the operand's address, Z and N follow it,
and nothing else changes (R153, R154). -/
theorem FormsUpdate.storesAt {forms : List Form} {update : Byte → Byte} (h : FormsUpdate forms update) (s : State) :
    ∀ p ∈ forms, HasOpcode p.2.1 p.1 ∧ ∃ t r, exec p.2.1 s = .next t ∧ r = update (s.operand p.2.2) ∧
      t = { s with ram := t.ram, flags := nz s.flags r } ∧ StoresAt s t (s.resolve p.2.2) r := by
  intro p hp
  obtain ⟨hop, hexec⟩ := h p hp
  obtain ⟨ea, hresolve, hnext⟩ := hexec s
  rw [hresolve]
  refine ⟨hop, _, _, hnext, rfl, ?frame, storesAt_memWrite s ea _⟩
  rw [← setNZ_eq_nz]
  rfl

/-- Settles O32: each form stores the operand's successor or predecessor modulo 256. -/
theorem memoryIsIncrementedAndDecremented : Obligations.MemoryIsIncrementedAndDecremented := by
  intro s b w
  simp only [← add_one_eq_ofNat, ← sub_one_eq_ofNat]
  exact ⟨(incForms_update b w).storesAt s, (decForms_update b w).storesAt s⟩

/-- Settles O33: each instruction writes its register, and Z and N by `setNZ_eq_nz`. -/
theorem indexRegistersCountModulo256 : Obligations.IndexRegistersCountModulo256 := by
  intro s
  simp only [← setNZ_eq_nz]
  exact ⟨⟨rfl, _, rfl, rfl, BitVec.toNat_add s.x 1⟩, ⟨rfl, _, rfl, rfl, BitVec.toNat_add s.y 1⟩,
    ⟨rfl, _, rfl, rfl, toNat_sub_one s.x⟩, ⟨rfl, _, rfl, rfl, toNat_sub_one s.y⟩⟩

end Machine

end Sys2Proof
end

section
/-! PROOFS. Shifts and rotates (44_shift_rotate.md R159 to R162): the byte and the carry of each in numbers, and the
location, A or memory, its form writes back. -/

namespace Sys2Proof

open Sys2Proof.Machine Sys2Proof.Claims

/-- Bit 0 of a byte, as the parity of its unsigned value. -/
theorem getLsbD_zero (v : Byte) : v.getLsbD 0 = decide (v.toNat % 2 = 1) := Nat.testBit_zero v.toNat

/-- A byte moved one bit up, in place values: bit 7 leaves it. -/
theorem toNat_shiftLeft_one (m : Byte) : (m <<< 1).toNat = 2 ^ 1 * (m.toNat % 128) := by
  rw [BitVec.toNat_shiftLeft, Nat.shiftLeft_eq]
  omega

/-- A byte moved one bit down, in place values: bit 0 leaves it. -/
theorem toNat_shiftRight_one (m : Byte) : (m >>> 1).toNat = m.toNat / 2 := by
  rw [BitVec.toNat_ushiftRight, Nat.shiftRight_eq_div_pow]

theorem bitNat_lt_two (b : Bool) : bitNat b < 2 := by cases b <;> decide

namespace Machine

variable (f : Flags) (m : Byte)

/-- ASL in numbers (R159). -/
theorem shiftLeft_eq : shiftLeft f m = (BitVec.ofNat 8 (2 * m.toNat),
    nz { f with c := decide (128 ≤ m.toNat) } (BitVec.ofNat 8 (2 * m.toNat))) := by
  have byte : m <<< 1 = BitVec.ofNat 8 (2 * m.toNat) := by
    apply BitVec.eq_of_toNat_eq
    rw [toNat_shiftLeft_one, BitVec.toNat_ofNat]
    omega
  rw [shiftLeft, byte, getLsbD_seven, setNZ_eq_nz]

/-- LSR in numbers (R160). -/
theorem shiftRight_eq : shiftRight f m = (BitVec.ofNat 8 (m.toNat / 2),
    nz { f with c := decide (m.toNat % 2 = 1) } (BitVec.ofNat 8 (m.toNat / 2))) := by
  have byte : m >>> 1 = BitVec.ofNat 8 (m.toNat / 2) := by
    rw [← toNat_shiftRight_one, BitVec.ofNat_toNat, BitVec.setWidth_eq]
  rw [shiftRight, byte, getLsbD_zero, setNZ_eq_nz]

/-- ROL in numbers (R161): the old carry enters the bit the shift freed, so OR is addition. -/
theorem rotateLeft_eq : rotateLeft f m = (BitVec.ofNat 8 (2 * m.toNat + bitNat f.c),
    nz { f with c := decide (128 ≤ m.toNat) } (BitVec.ofNat 8 (2 * m.toNat + bitNat f.c))) := by
  have byte : m <<< 1 ||| bitByte f.c = BitVec.ofNat 8 (2 * m.toNat + bitNat f.c) := by
    have carry : bitNat f.c < 2 ^ 1 := bitNat_lt_two f.c
    apply BitVec.eq_of_toNat_eq
    rw [BitVec.toNat_or, toNat_shiftLeft_one, toNat_bitByte, ← Nat.two_pow_add_eq_or_of_lt carry, BitVec.toNat_ofNat]
    omega
  rw [rotateLeft, byte, getLsbD_seven, setNZ_eq_nz]

/-- ROR in numbers (R162): the old carry enters the bit the shift freed, so OR is addition. -/
theorem rotateRight_eq : rotateRight f m = (BitVec.ofNat 8 (m.toNat / 2 + 128 * bitNat f.c),
    nz { f with c := decide (m.toNat % 2 = 1) } (BitVec.ofNat 8 (m.toNat / 2 + 128 * bitNat f.c))) := by
  have byte : m >>> 1 ||| bitByte f.c <<< 7 = BitVec.ofNat 8 (m.toNat / 2 + 128 * bitNat f.c) := by
    have carry : (bitByte f.c <<< 7).toNat = 2 ^ 7 * bitNat f.c := by cases f.c <;> rfl
    have half : m.toNat / 2 < 2 ^ 7 := by omega
    have := bitNat_lt_two f.c
    apply BitVec.eq_of_toNat_eq
    rw [BitVec.toNat_or, toNat_shiftRight_one, carry, Nat.or_comm, ← Nat.two_pow_add_eq_or_of_lt half,
      BitVec.toNat_ofNat]
    omega
  rw [rotateRight, byte, getLsbD_zero, setNZ_eq_nz]

/-- Every form on the list has its opcode and an operand that can be written, A or memory, and its instruction writes
back there what `update` makes of the flags and the operand. -/
def FormsModify (forms : List Form) (update : Flags → Byte → Byte × Flags) : Prop :=
  ∀ p ∈ forms, HasOpcode p.2.1 p.1 ∧
    ∀ s, (∀ v, s.resolve p.2.2 ≠ .imm v) ∧ exec p.2.1 s = .next (modify update p.2.2 s)

theorem aslForms_modify (b : Byte) (w : Word) : FormsModify (aslForms b w) shiftLeft := by
  intro p hp
  fin_cases hp <;> exact ⟨rfl, fun _ => ⟨nofun, rfl⟩⟩

theorem lsrForms_modify (b : Byte) (w : Word) : FormsModify (lsrForms b w) shiftRight := by
  intro p hp
  fin_cases hp <;> exact ⟨rfl, fun _ => ⟨nofun, rfl⟩⟩

theorem rolForms_modify (b : Byte) (w : Word) : FormsModify (rolForms b w) rotateLeft := by
  intro p hp
  fin_cases hp <;> exact ⟨rfl, fun _ => ⟨nofun, rfl⟩⟩

theorem rorForms_modify (b : Byte) (w : Word) : FormsModify (rorForms b w) rotateRight := by
  intro p hp
  fin_cases hp <;> exact ⟨rfl, fun _ => ⟨nofun, rfl⟩⟩

/-- What a shift or rotate form does: the new byte is written to A or stored at the operand's address, C takes the bit
shifted out, Z and N follow the byte, and nothing else changes (R159 to R162). -/
theorem FormsModify.shifts {forms : List Form} {update : Flags → Byte → Byte × Flags} {byte : Flags → Byte → Byte}
    {carry : Byte → Bool} (h : FormsModify forms update)
    (hupdate : ∀ f m, update f m = (byte f m, nz { f with c := carry m } (byte f m))) (s : State) :
    ∀ p ∈ forms, Shifts s p (byte s.flags (s.operand p.2.2)) (carry (s.operand p.2.2)) := by
  intro p hp
  obtain ⟨hop, hexec⟩ := h p hp
  obtain ⟨hwritable, hnext⟩ := hexec s
  rw [modify_next, hupdate] at hnext
  refine ⟨hop, ?_⟩
  cases hloc : s.resolve p.2.2 with
  | regA => rw [hnext, hloc]; rfl
  | mem ea =>
    rw [hloc] at hnext
    exact ⟨_, hnext, rfl, storesAt_memWrite s ea _⟩
  | imm v => exact hwritable v hloc

/-- Settles O34: each form writes back its shifted byte, `shiftLeft_eq` or `shiftRight_eq`. -/
theorem shiftsMoveOneBitIntoCarry : Obligations.ShiftsMoveOneBitIntoCarry :=
  fun s b w => ⟨(aslForms_modify b w).shifts shiftLeft_eq s, (lsrForms_modify b w).shifts shiftRight_eq s⟩

/-- Settles O35: each form writes back its rotated byte, `rotateLeft_eq` or `rotateRight_eq`. -/
theorem rotatesFeedTheOldCarry : Obligations.RotatesFeedTheOldCarry :=
  fun s b w => ⟨(rolForms_modify b w).shifts rotateLeft_eq s, (rorForms_modify b w).shifts rotateRight_eq s⟩

end Machine

end Sys2Proof
end

section
/-! PROOFS. Jumps, JSR, RTS and branches (45_control.md R163 to R173) in numbers: the word of two bytes, the pointer's
high byte, the slots of a word push, and the PC that a jump or a branch leaves. -/

namespace Sys2Proof

open Sys2Proof.Machine Sys2Proof.Claims

/-- The word of two bytes in numbers (20_memory.md R64). -/
theorem wordOf_eq_wordOfBytes (hi lo : Byte) : wordOf hi lo = wordOfBytes lo hi := by
  rw [wordOfBytes, Nat.add_comm, ← toNat_wordOf, BitVec.ofNat_toNat, BitVec.setWidth_eq]

/-- A word's high byte in numbers (R8). -/
theorem hiByte_eq_ofNat (w : Word) : hiByte w = BitVec.ofNat 8 (w.toNat / 256) := by
  rw [← toNat_hiByte, BitVec.ofNat_toNat, BitVec.setWidth_eq]

/-- A word's low byte in numbers (R8). -/
theorem loByte_eq_ofNat (w : Word) : loByte w = BitVec.ofNat 8 (w.toNat % 256) := by
  rw [← toNat_loByte, BitVec.ofNat_toNat, BitVec.setWidth_eq]

/-- A word with its low byte cleared: masking is a shift down and up again. -/
theorem toNat_and_highMask (w : Word) : (w &&& 0xFF00).toNat = 2 ^ 8 * (w.toNat / 256) := by
  have mask : (0xFF00 : Word) = BitVec.allOnes 16 <<< 8 := by decide
  rw [mask, ← BitVec.shiftLeft_ushiftRight, BitVec.toNat_shiftLeft, BitVec.toNat_ushiftRight,
    Nat.shiftRight_eq_div_pow, Nat.shiftLeft_eq]
  omega

namespace Machine

/-- PC one less than a target, in numbers (40_cycle.md R124). -/
theorem target_sub_one_eq_ofNat (t : Word) : t - 1 = BitVec.ofNat 16 (t.toNat + 65535) := by bv_omega

/-- A jump writes PC alone (40_cycle.md R124). -/
theorem jumpTo_eq (s : State) (t : Word) : s.jumpTo t = { s with pc := BitVec.ofNat 16 (t.toNat + 65535) } := by
  rw [← target_sub_one_eq_ofNat]
  rfl

/-- SP after a word pull, in numbers (R121). -/
theorem add_two_eq_ofNat (sp : Byte) : sp + 2 = BitVec.ofNat 8 (sp.toNat + 2) := by bv_omega

/-- SP after a word push, in numbers (R120). -/
theorem sub_two_eq_ofNat (sp : Byte) : sp - 2 = BitVec.ofNat 8 (sp.toNat + 254) := by bv_omega

/-- The successor of a pointer inside the pointer's own page (30_encoding.md R94): the two masked halves share no bit,
so OR is addition. -/
theorem nextInPage_eq_ofNat (p : Word) : (p &&& 0xFF00) ||| ((p + 1) &&& 0x00FF) =
    BitVec.ofNat 16 (p.toNat / 256 * 256 + (p.toNat + 1) % 256) := by
  have low : ((p + 1) &&& 0x00FF).toNat = (p.toNat + 1) % 65536 % 256 := by
    rw [BitVec.toNat_and, BitVec.toNat_add]
    exact Nat.and_two_pow_sub_one_eq_mod _ 8
  apply BitVec.eq_of_toNat_eq
  rw [BitVec.toNat_or, toNat_and_highMask, low, ← Nat.two_pow_add_eq_or_of_lt (Nat.mod_lt _ (by decide)),
    BitVec.toNat_ofNat]
  omega

/-- The target of an indirect jump in numbers, the pointer's high byte in its own page or at the next address (R94). -/
theorem indirectTarget_eq (s : State) (p : Word) : s.indirectTarget p =
    wordOfBytes (s.memRead p) (s.memRead (BitVec.ofNat 16
      (if s.cfg.jmpIndPageBug then p.toNat / 256 * 256 + (p.toNat + 1) % 256 else (p.toNat + 1) % 65536))) := by
  have hnext : p + 1 = BitVec.ofNat 16 ((p.toNat + 1) % 65536) := by bv_omega
  rw [State.indirectTarget, nextInPage_eq_ofNat, hnext, ← apply_ite (BitVec.ofNat 16), wordOf_eq_wordOfBytes]

/-- Distinct slots below SP, less than a page away, have distinct addresses (10_state.md R17). -/
theorem slotBelow_ne {s : State} {j k : Nat} (hjk : j < k) (hk : k < 256) : slotBelow s j ≠ slotBelow s k := by
  have := s.sp.isLt
  intro h
  have haddr := congrArg BitVec.toNat h
  rw [slotBelow, slotBelow, BitVec.toNat_ofNat, BitVec.toNat_ofNat] at haddr
  omega

/-- One push after others writes the next slot down and leaves the others' bytes and the frame as they were (R118). -/
theorem pushesOnly_append_push {s t : State} {l : List Byte} (h : PushesOnly s t l) (hlen : l.length < 256)
    (hsp : t.sp = s.sp - BitVec.ofNat 8 l.length) (v : Byte) : PushesOnly s (t.push v) (l ++ [v]) := by
  obtain ⟨hwritten, hframe⟩ := h
  have hslot : stackAddr t.sp = slotBelow s l.length := by rw [hsp, slotBelow_eq_stackAddr s hlen.le]
  refine ⟨fun k w hw => ?written, fun a ha => ?frame⟩
  case written =>
    rw [State.ramByte_push, hslot]
    rcases Nat.lt_or_ge k l.length with hk | hk
    · rw [if_neg (slotBelow_ne hk hlen)]
      exact hwritten k w (by rwa [List.getElem?_append_left hk] at hw)
    · obtain ⟨hkl, rfl⟩ : k - l.length = 0 ∧ v = w := by
        simpa [List.getElem?_append_right hk, List.getElem?_singleton] using hw
      have hlast : k = l.length := by omega
      rw [if_pos (congrArg _ hlast)]
  case frame =>
    have hne : a ≠ stackAddr t.sp := hslot ▸ ha l.length (by simp)
    obtain ⟨hram, hread⟩ := hframe a fun k hk => ha k (by rw [List.length_append]; exact Nat.lt_add_right _ hk)
    exact ⟨by rw [State.ramByte_push, if_neg hne, hram], by rw [t.memRead_push v hne, hread]⟩

/-- A word push writes the high byte, then the low byte, from SP down, and nothing else (R120). -/
theorem pushesOnly_push16 (s : State) (w : Word) : PushesOnly s (s.push16 w) [hiByte w, loByte w] :=
  pushesOnly_append_push (pushesOnly_push s (hiByte w)) (by simp) rfl (loByte w)

/-- Settles O36: each form is a jump, to its address or to the word of `indirectTarget_eq`. -/
theorem jumpsGoToTheTarget : Obligations.JumpsGoToTheTarget := by
  refine fun s w => ⟨⟨rfl, congrArg Host.Outcome.next (jumpTo_eq s w)⟩, rfl, ?_⟩
  dsimp only
  rw [← indirectTarget_eq, ← jumpTo_eq]
  rfl

/-- Settles O37: JSR is one word push of PC and a jump, which writes PC alone. -/
theorem jsrPushesItsLastByteAddress : Obligations.JsrPushesItsLastByteAddress := by
  refine fun s w => ⟨rfl, jsr w s, rfl, ?pushed, ?frame⟩
  case pushed =>
    rw [← hiByte_eq_ofNat, ← loByte_eq_ofNat]
    exact pushesOnly_push16 s s.pc
  case frame =>
    rw [← sub_two_eq_ofNat, ← target_sub_one_eq_ofNat, jsr_next]

/-- Settles O38: RTS is one word pull, in numbers. -/
theorem rtsPullsThePc : Obligations.RtsPullsThePc := by
  refine fun s => ⟨rfl, ?_⟩
  rw [slotAbove_eq_stackAddr, slotAbove_eq_stackAddr, ← wordOf_eq_wordOfBytes, ← add_two_eq_ofNat]
  exact congrArg Host.Outcome.next (rts_next s)

/-- A branch's target less one is PC plus the displacement modulo 65536 (30_encoding.md R97). -/
theorem relativeTarget_sub_one (s : State) (d : Int) : s.relativeTarget d - 1 = BitVec.ofInt 16 (s.pc.toNat + d) := by
  have hpc : s.pc = BitVec.ofInt 16 s.pc.toNat := by simp
  rw [BitVec.ofInt_add, ← hpc, State.relativeTarget, dispWord]
  bv_omega

/-- Settles O39: each instruction is a branch on its condition as a flag, taken or not by `branch_next`. -/
theorem branchesMoveThePcOnTheirCondition : Obligations.BranchesMoveThePcOnTheirCondition := by
  intro s d p hp
  have hbranch : HasOpcode p.2.1 p.1 ∧
      ∃ taken : Bool, (taken = true ↔ p.2.2) ∧ exec p.2.1 s = .next (branch taken (s.relativeTarget d) s) := by
    fin_cases hp <;> exact ⟨rfl, _, by simp, rfl⟩
  obtain ⟨hop, taken, hcond, hexec⟩ := hbranch
  rw [hexec, branch_next, relativeTarget_sub_one, ← hcond]
  refine ⟨hop, fun h => ?_, fun h => ?_⟩
  · rw [if_pos h]
  · rw [if_neg h]

end Machine

end Sys2Proof
end

section
/-! PROOFS. The flag instructions, BRK and RTI (46_flags_system.md R174 to R183): exception entry and return in numbers,
and the steps that run BRK and RTI. -/

namespace Sys2Proof

open Sys2Proof.Machine Sys2Proof.Claims

/-- The opcode `$00` decodes to BRK with the padding byte behind it (30_encoding.md R109, 46_flags_system.md R182). -/
theorem decode_brk (pad : Byte) (l : List Byte) : decode (0x00 :: pad :: l) = .ok (.brk pad, l) := rfl

namespace Machine

/-- SP after an exception return, in numbers (46_flags_system.md R183). -/
theorem add_three_eq_ofNat (sp : Byte) : sp + 3 = BitVec.ofNat 8 (sp.toNat + 3) := by bv_omega

/-- SP after an exception entry, in numbers (46_flags_system.md R182). -/
theorem sub_three_eq_ofNat (sp : Byte) : sp - 3 = BitVec.ofNat 8 (sp.toNat + 253) := by bv_omega

/-- An exception entry pushes the address of the next instruction, high byte first, then the status byte, and writes no
other byte (60_exceptions.md R192). -/
theorem pushesOnly_takeException (s : State) :
    PushesOnly s s.takeException [hiByte (s.pc + 1), loByte (s.pc + 1), s.sr] :=
  pushesOnly_append_push (pushesOnly_push16 s (s.pc + 1)) (by simp) (s.push16_sp (s.pc + 1)) s.sr

/-- BRK off the stop path pushes BRK's address plus 2 and the status byte with B set (46_flags_system.md R182). -/
theorem pushesOnly_brk {s : State} (h : s.stopOnBreak = false) : PushesOnly s (brk s)
    [BitVec.ofNat 8 ((s.pc.toNat + 2) % 65536 / 256), BitVec.ofNat 8 (s.pc.toNat + 2),
      statusByte { s.flags with b := true }] := by
  have hreturn : (s.pc + 1 + 1).toNat = (s.pc.toNat + 2) % 65536 := by bv_omega
  have hlow : loByte (s.pc + 1 + 1) = BitVec.ofNat 8 (s.pc.toNat + 2) := by
    rw [loByte_eq_ofNat, hreturn]
    bv_omega
  rw [← hreturn, ← hiByte_eq_ofNat, ← hlow, ← Flags.sr_eq_statusByte, brk_enter h, State.enterBreak_next]
  exact pushesOnly_takeException { s with pc := s.pc + 1, flags := { s.flags with b := true } }

/-- BRK off the stop path, in numbers (46_flags_system.md R182). -/
theorem brk_enter_eq {s : State} (h : s.stopOnBreak = false) : brk s =
    { s with
      ram := (brk s).ram, sp := BitVec.ofNat 8 (s.sp.toNat + 253), flags := { s.flags with b := true, i := true }
      pc := BitVec.ofNat 16 ((wordOfBytes (s.memRead 0xFFFE) (s.memRead 0xFFFF)).toNat + 65535) } := by
  rw [← sub_three_eq_ofNat, ← target_sub_one_eq_ofNat, ← wordOf_eq_wordOfBytes, brk_enter h, State.enterBreak_next,
    State.takeException_next]
  rfl

/-- RTI's return, in numbers (46_flags_system.md R183). -/
theorem returnFromException_eq (s : State) : s.returnFromException = { s with
    sp := BitVec.ofNat 8 (s.sp.toNat + 3), flags := flagsOfByte (s.ramByte (slotAbove s 1))
    pc := BitVec.ofNat 16 ((wordOfBytes (s.ramByte (slotAbove s 2)) (s.ramByte (slotAbove s 3))).toNat + 65535) } := by
  simp only [slotAbove_eq_stackAddr, ← wordOf_eq_wordOfBytes, ← target_sub_one_eq_ofNat, ← add_three_eq_ofNat]
  exact s.returnFromException_next

/-- The step of a decoded instruction: its own effect from the state the resolver leaves, then the end of the step
(40_cycle.md R110). -/
theorem step_of_decode {s t : State} {i : Instr} {l : List Byte} (hdecode : decode s.fetchBytes = .ok (i, l))
    (hexec : exec i ((s.setSignals []).afterOperands i) = .next t) :
    step s = .next (t.endOfStep (s.memRead (s.pc + 1))) := by
  obtain ⟨u, hstep, ⟨j, rest, hj, hu⟩ | ⟨⟨e, he⟩, -⟩⟩ := step_next s
  · cases hdecode.symm.trans hj
    cases hexec.symm.trans hu
    exact hstep
  · cases hdecode.symm.trans he

/-- BRK's meaning starts with PC at its opcode: the resolver reads no operand byte (46_flags_system.md R182). -/
theorem afterOperands_brk (s : State) (pad : Byte) : s.afterOperands (.brk pad) = { s with pc := s.pc + 1 } :=
  congrArg s.setPc (BitVec.add_zero (s.pc + 1))

/-- The step that runs BRK: its own effect from PC at the opcode and no signals, then the interrupt check (40_cycle.md
R110). -/
theorem step_of_brk {s : State} (hop : s.memRead (s.pc + 1) = 0x00) :
    step s = .next (brk { s with pc := s.pc + 1, signals := [] }).checkIrq := by
  have hdecode : decode s.fetchBytes = .ok (.brk (s.memRead (s.pc + 2)), [s.memRead (s.pc + 3)]) := by
    rw [State.fetchBytes, hop, decode_brk]
  rw [step_of_decode hdecode rfl, hop, State.endOfStep_of_ne_rti _ (by decide), afterOperands_brk]
  rfl

/-- No request is due where I is set (60_exceptions.md R191). -/
theorem State.checkIrq_of_masked {s : State} (h : s.flags.i = true) : s.checkIrq = s :=
  checkIrq_of_not_deliveryDue fun ⟨_, hclear, _⟩ => Bool.false_ne_true (hclear.symm.trans h)

/-- Settles O40: each instruction writes its flag by definition. -/
theorem flagInstructionsWriteOneFlag : Obligations.FlagInstructionsWriteOneFlag := by
  intro s p hp
  fin_cases hp <;> exact ⟨rfl, rfl⟩

/-- Settles O41: BRK in numbers on both paths; the step's interrupt check finds I set off the stop path. -/
theorem brkStopsOrEntersTheHandler : Obligations.BrkStopsOrEntersTheHandler := by
  refine fun s pad => ⟨rfl, fun h => ?stop, fun h => ⟨brk s, rfl, pushesOnly_brk h, brk_enter_eq h⟩,
    fun hop h => ?stepStop, fun hop h => ?stepEnter⟩
  case stop =>
    have hpc : s.pc + 1 = BitVec.ofNat 16 (s.pc.toNat + 1) := by bv_omega
    rw [← hpc]
    exact congrArg Host.Outcome.next (brk_stop h)
  case stepStop =>
    have hpc : s.pc + 1 + 1 = s.pc + 2 := by bv_omega
    rw [step_of_brk hop, brk_stop, ← hpc]
    · rfl
    · exact h
  case stepEnter =>
    rw [step_of_brk hop, State.checkIrq_of_masked]
    · rfl
    · rw [brk_enter_eq]
      exact h

/-- Settles O42: RTI is the return in numbers, and its step clears the in-service flag before the interrupt check. -/
theorem rtiRestoresFlagsAndPc : Obligations.RtiRestoresFlagsAndPc := by
  refine fun s => ⟨rfl, _, rfl, congrArg Host.Outcome.next (returnFromException_eq s), fun hop => ?_⟩
  rw [step_of_bare hop rfl rfl rfl, State.endOfStep, State.rtiFlagStep_next, returnFromException_eq]
  rfl

end Machine

end Sys2Proof
end

section
/-! PROOFS. The encoder and the decoder undo each other (30_encoding.md sections 1 to 4): every instruction stands in
the row of the opcode table under its first byte, and every row encodes what it makes. -/

namespace Sys2Proof

open Sys2Proof.Laws

/-- Every instruction is made by the table's row under its opcode byte, out of its operand bytes (R98, R99). -/
theorem tableEntry (i : Instr) : TableEntry.Statement i := by
  cases i with
  | tax | tay | txa | tya | tsx | txs | pha | php | pla | plp | inx | iny | dex | dey | aslAcc | lsrAcc | rolAcc
  | rorAcc | rts | clc | cld | cli | clv | sec | sed | sei | nop | rti => exact ⟨rfl, rfl, rfl⟩
  | _ => exact ⟨rfl, _, rfl, rfl⟩

/-- A displacement that fits survives its byte (R97). -/
theorem sext8_dispByte {d : Int} (h : displacementFits d = true) : sext8 (dispByte d) = d := by
  simp only [displacementFits, Bool.and_eq_true, decide_eq_true_eq] at h
  exact sext8_ofInt h.1 h.2

/-- Settles O1: the instruction's row is found by its opcode byte and makes it again out of its operand bytes. -/
theorem decodeOfEncodeIsTheInstruction : Obligations.DecodeOfEncodeIsTheInstruction := by
  intro i rest hwf
  have hentry := tableEntry i
  unfold TableEntry.Statement at hentry
  split at hentry
  next => exact hentry.elim
  next op operands henc =>
    obtain ⟨-, hrow⟩ := hentry
    rw [henc]
    cases hl : opcodeTable.lookup op with
    | none => rw [hl] at hrow; exact hrow.elim
    | some sh =>
      rw [hl] at hrow
      cases sh with
      | bare j =>
        obtain ⟨rfl, rfl⟩ := hrow
        exact decode_bare hl rest
      | byte f =>
        obtain ⟨v, rfl, rfl⟩ := hrow
        simp [decode, hl]
      | disp f =>
        obtain ⟨d, rfl, rfl⟩ := hrow
        have hfits : displacementFits d = true := by
          have hmade : RowMakesItsEncoding (op, .disp f) := opcodeTable_makes_encodings _ (lookup_row hl)
          rw [← (hmade d).2, hwf]
        simp [decode, hl, sext8_dispByte hfits]
      | word f =>
        obtain ⟨w, rfl, rfl⟩ := hrow
        simp [decode, hl, wordBytes]

/-- Settles O2: what a row of the table makes is well-formed and encodes to the row's byte and its operand bytes. -/
theorem encodeOfDecodeIsTheBytes : Obligations.EncodeOfDecodeIsTheBytes := by
  intro bytes i rest h
  match bytes with
  | [] => cases h
  | op :: l =>
    cases hl : opcodeTable.lookup op with
    | none => simp [decode_unlisted hl] at h
    | some sh =>
      have hrow : RowMakesItsEncoding (op, sh) := opcodeTable_makes_encodings _ (lookup_row hl)
      simp only [decode, hl] at h
      cases sh with
      | bare j =>
        cases h
        exact ⟨hrow.2, by rw [hrow.1]; rfl⟩
      | byte f =>
        match l, h with
        | v :: _, rfl => exact ⟨(hrow v).2, by rw [(hrow v).1]; rfl⟩
      | disp f =>
        match l, h with
        | v :: _, rfl =>
          refine ⟨(hrow (sext8 v)).2.trans (displacementFits_sext8 v), ?_⟩
          rw [(hrow (sext8 v)).1, dispByte_sext8]
          rfl
      | word f =>
        match l, h with
        | lo :: hi :: _, rfl =>
          refine ⟨(hrow (wordOf hi lo)).2, ?_⟩
          rw [(hrow (wordOf hi lo)).1, wordBytes, loByte_wordOf, hiByte_wordOf]
          rfl

/-- Settles O5: the operand bytes of each mode by R104's table, and the encoder's length constructor by constructor. -/
theorem lengthFollowsTheMode : Obligations.LengthFollowsTheMode := by
  intro i
  refine ⟨i.mode.operandBytes + 1, ?table, rfl, ?length⟩
  case table => cases i.mode <;> rfl
  case length => cases i <;> rfl

/-- Settles O4: each word by its row of the table. -/
theorem writtenOutWordsDecode : Obligations.WrittenOutWordsDecode :=
  ⟨rfl, rfl, rfl, rfl, rfl, rfl, rfl, rfl, rfl⟩

end Sys2Proof
end

section
/-! PROOFS. Reads and writes through the mode table (20_memory.md sections 2, 3, 5 and 7): the table against the decode
equations, and which reads see a store. -/

namespace Sys2Proof

open Sys2Proof.Machine Sys2Proof.Claims

namespace Machine

/-- The mode of the lines EXROM and GAME and the port's bits CHAREN, HIRAM and LORAM (10_state.md R34). -/
def modeOfBits (exrom game ch hi lo : Bool) : BitVec 5 :=
  BitVec.ofNat 5 (16 * bitNat exrom + 8 * bitNat game + 4 * bitNat ch + 2 * bitNat hi + bitNat lo)

/-- A bit of a number, as a number. -/
theorem bitNat_testBit (n k : Nat) : bitNat (n.testBit k) = n / 2 ^ k % 2 := by
  rw [Nat.testBit_eq_decide_div_mod_eq, bitNat]
  split
  next h => exact (of_decide_eq_true h).symm
  next h =>
    have := of_decide_eq_false (Bool.eq_false_iff.2 h)
    omega

/-- The mode of a state, bit by bit (R34). -/
theorem State.mode_eq_modeOfBits (s : State) : s.mode =
    modeOfBits s.exrom s.game ((s.ramByte portAddr).toNat.testBit 2) ((s.ramByte portAddr).toNat.testBit 1)
      ((s.ramByte portAddr).toNat.testBit 0) := by
  have := bitNat_le_one s.exrom
  have := bitNat_le_one s.game
  apply BitVec.eq_of_toNat_eq
  rw [State.toNat_mode, modeOfBits, BitVec.toNat_ofNat, bitNat_testBit, bitNat_testBit, bitNat_testBit]
  omega

/-- The table's row of a mode, column by column, is what the decode equations give at the zone's base (R55). -/
theorem chunkFor_modeOfBits : ∀ (exrom game ch hi lo : Bool) (z : Zone),
    chunkFor (modeOfBits exrom game ch hi lo) z = servedByEquations exrom game ch hi lo z.base.toNat := by
  intro exrom game ch hi lo z
  cases z <;> revert exrom game ch hi lo <;> decide

/-- An address lies below a zone boundary exactly when its zone's base does (R51, R52). -/
theorem lt_boundary_iff (a : Word) {n : Nat} (hn : n ∈ [0x1000, 0x8000, 0xA000, 0xC000, 0xD000, 0xE000]) :
    a.toNat < n ↔ (zoneOf a).base.toNat < n := by
  simp only [List.mem_cons, List.not_mem_nil, or_false] at hn
  obtain ⟨hz, h⟩ | ⟨hz, h⟩ | ⟨hz, h⟩ | ⟨hz, h⟩ | ⟨hz, h⟩ | ⟨hz, h⟩ | ⟨hz, h⟩ := zoneOf_cases a <;>
    · simp only [hz, Zone.base, BitVec.ofNat_eq_ofNat, BitVec.toNat_ofNat]
      omega

/-- The decode equations give one chunk for a whole zone (R55). -/
theorem servedByEquations_zoneOf (exrom game ch hi lo : Bool) (a : Word) :
    servedByEquations exrom game ch hi lo a.toNat = servedByEquations exrom game ch hi lo (zoneOf a).base.toNat := by
  have boundary := fun n hn => lt_boundary_iff a (n := n) hn
  simp only [servedByEquations, boundary 0x1000 (by decide), boundary 0x8000 (by decide), boundary 0xA000 (by decide),
    boundary 0xC000 (by decide), boundary 0xD000 (by decide), boundary 0xE000 (by decide)]

/-- Settles O7: the table and the equations agree at the base of each zone, and both are constant on a zone. -/
theorem modeTableAgreesWithTheDecodeEquations : Obligations.ModeTableAgreesWithTheDecodeEquations := by
  intro s addr
  rw [servedByEquations_zoneOf, ← chunkFor_modeOfBits]
  exact congrArg (chunkFor · (zoneOf addr)) s.mode_eq_modeOfBits

/-- In each of the seven modes R55 lists, RAM serves every zone. -/
theorem chunkFor_allRam : ∀ (mode : BitVec 5) (z : Zone), mode.toNat ∈ [0, 1, 4, 8, 12, 24, 28] →
    chunkFor mode z = .ram := by
  intro mode z
  cases z <;> revert mode <;> decide

/-- Settles O10: in an all-RAM mode the read gives the RAM byte, which the write of the port left as it was. -/
theorem writtenByteIsReadInTheAllRamMode : Obligations.WrittenByteIsReadInTheAllRamMode := by
  rintro s addr v port game exrom hport t rfl hmode
  rw [State.memRead_of_servedBy_ram (chunkFor_allRam _ (zoneOf addr) hmode), State.ramByte_setCartLines,
    State.ramByte_memWrite, if_neg hport, State.ramByte_memWrite_same]

/-- Settles O11: the address lies in zone 0. -/
theorem lowMemoryReadsRamInEveryMode : Obligations.LowMemoryReadsRamInEveryMode :=
  fun s _ hlow => s.memRead_z0 (State.zoneOf_low (BitVec.le_def.2 hlow))

/-- The high cartridge chunk serves zone 3 in modes 2, 3, 6 and 7 (R55, R59). -/
theorem chunkFor_z3_cartHi : ∀ mode : BitVec 5, mode.toNat ∈ [2, 3, 6, 7] → chunkFor mode .z3 = .cartHi := by decide

/-- The high cartridge chunk serves zone 6 in modes 16 to 23 (R55, R59). -/
theorem chunkFor_z6_cartHi : ∀ mode : BitVec 5, 16 ≤ mode.toNat → mode.toNat ≤ 23 → chunkFor mode .z6 = .cartHi := by
  decide

/-- Two zones that overlap are the same zone (R51). -/
theorem zone_eq_of_overlap (y z : Zone) :
    y.base.toNat < z.base.toNat + z.size → z.base.toNat < y.base.toNat + y.size → y = z := by
  cases y <;> cases z <;> decide

/-- A zone ends at the latest where the addresses do (R51). -/
theorem base_add_size_le (z : Zone) : z.base.toNat + z.size ≤ 65536 := by cases z <;> decide

/-- The address at an offset inside a zone, in numbers (R54). -/
theorem toNat_base_add {z : Zone} {k : Nat} (hk : k < z.size) :
    (BitVec.ofNat 16 (z.base.toNat + k)).toNat = z.base.toNat + k := by
  have := base_add_size_le z
  rw [BitVec.toNat_ofNat, Nat.mod_eq_of_lt (by omega)]

/-- The address at an offset inside a zone lies in that zone (R54). -/
theorem zoneOf_base_add {z : Zone} {k : Nat} (hk : k < z.size) : zoneOf (BitVec.ofNat 16 (z.base.toNat + k)) = z := by
  obtain ⟨hle, hlt⟩ := base_zoneOf_le_and_lt (BitVec.ofNat 16 (z.base.toNat + k))
  rw [toNat_base_add hk] at hle hlt
  exact zone_eq_of_overlap _ z (by omega) (by omega)

/-- A read in a zone that the high cartridge chunk serves is a read of the chunk at the zone's offset (R56, R59). -/
theorem State.memRead_cartHi {s : State} {z : Zone} {k : Nat} (hserved : chunkFor s.mode z = .cartHi)
    (hk : k < z.size) : s.memRead (BitVec.ofNat 16 (z.base.toNat + k)) = Memory.read .cartHi s.cartHi k := by
  rw [memRead, servedBy, toNat_localOffset, zoneBase_toNat, zoneOf_base_add hk, hserved, toNat_base_add hk,
    Nat.add_sub_cancel_left]

/-- Settles O13: both reads are of the cartridge chunk at offset `k`, one through zone 3 and one through zone 6. -/
theorem cartridgeHighServesTwoZones : Obligations.CartridgeHighServesTwoZones := by
  intro s t k hk hchunk hlow hge hle
  calc s.memRead (BitVec.ofNat 16 (0xA000 + k))
      = Memory.read .cartHi s.cartHi k := State.memRead_cartHi (z := .z3) (chunkFor_z3_cartHi _ hlow) hk
    _ = Memory.read .cartHi t.cartHi k := by rw [hchunk]
    _ = t.memRead (BitVec.ofNat 16 (0xE000 + k)) :=
      (State.memRead_cartHi (z := .z6) (chunkFor_z6_cartHi _ hge hle) hk).symm

/-- Settles O15: both cases of what a read of the address just written gives. -/
theorem storeIsSeenWhereRamServesTheAddress : Obligations.StoreIsSeenWhereRamServesTheAddress :=
  fun s addr v => ⟨fun h => (s.memRead_memWrite_same addr v).trans (if_pos h),
    fun h => (s.memRead_memWrite_same addr v).trans (if_neg h)⟩

end Machine

end Sys2Proof
end

section
/-! PROOFS. A canonical byte array is settled by what it reads (10_state.md section 6). -/

namespace Sys2Proof

open Sys2Proof.Machine

namespace Machine.Memory

variable {k : ChunkKind}

/-- An address below every listed one reads as an unlisted one. -/
theorem read_of_lt {m : Memory} {lo a : Nat} (hm : risingFrom lo m = true) (ha : a < lo) :
    read k m a = unlisted k a := by
  induction m generalizing lo with
  | nil => rfl
  | cons e m ih =>
    obtain ⟨b, v⟩ := e
    simp only [risingFrom, Bool.and_eq_true, decide_eq_true_eq] at hm
    rw [read, if_neg (by omega), ih hm.2 (by omega)]

/-- A list that rises from its first entry's address on rises from there. -/
theorem risingFrom_head {m : Memory} {lo b : Nat} {v : Byte} (hm : risingFrom lo ((b, v) :: m) = true) :
    risingFrom b ((b, v) :: m) = true ∧ risingFrom (b + 1) m = true := by
  simp only [risingFrom, Bool.and_eq_true, decide_eq_true_eq] at hm ⊢
  exact ⟨⟨le_refl b, hm.2⟩, hm.2⟩

@[simp] theorem read_head (m : Memory) (b : Nat) (v : Byte) : read k ((b, v) :: m) b = v := if_pos rfl

theorem read_tail (m : Memory) {a b : Nat} (v : Byte) (h : a ≠ b) : read k ((b, v) :: m) a = read k m a := if_neg h

/-- Two rising lists that read alike, neither with an entry equal to what an unlisted address reads as, are equal: their
first entries agree in address, so in byte, and then the rest read alike. -/
theorem eq_of_read_eq {m n : Memory} {lo : Nat} (hm : risingFrom lo m = true) (hn : risingFrom lo n = true)
    (hm' : ∀ e ∈ m, e.2 ≠ unlisted k e.1) (hn' : ∀ e ∈ n, e.2 ≠ unlisted k e.1)
    (hread : ∀ a, read k m a = read k n a) : m = n := by
  induction m generalizing n lo with
  | nil =>
    match n with
    | [] => rfl
    | (c, w) :: n => exact absurd (by simpa using (hread c).symm) (hn' (c, w) List.mem_cons_self)
  | cons e m ih =>
    obtain ⟨b, v⟩ := e
    have hv : v ≠ unlisted k b := hm' (b, v) List.mem_cons_self
    match n with
    | [] => exact absurd (by simpa using hread b) hv
    | (c, w) :: n =>
      have hw : w ≠ unlisted k c := hn' (c, w) List.mem_cons_self
      obtain ⟨hmb, hmtail⟩ := risingFrom_head hm
      obtain ⟨hnc, hntail⟩ := risingFrom_head hn
      have hcb : c ≤ b := by
        by_contra hlt
        exact hv (by rw [← read_of_lt hnc (not_le.1 hlt), ← hread b, read_head])
      have hbc : b ≤ c := by
        by_contra hlt
        exact hw (by rw [← read_of_lt hmb (not_le.1 hlt), hread c, read_head])
      obtain rfl : b = c := le_antisymm hbc hcb
      obtain rfl : v = w := by simpa using hread b
      have htail : ∀ a, read k m a = read k n a := by
        intro a
        by_cases ha : a = b
        · rw [ha, read_of_lt hmtail (Nat.lt_succ_self b), read_of_lt hntail (Nat.lt_succ_self b)]
        · rw [← read_tail m v ha, ← read_tail n v ha, hread a]
      rw [ih hmtail hntail (fun e he => hm' e (List.mem_cons_of_mem _ he))
        (fun e he => hn' e (List.mem_cons_of_mem _ he)) htail]

end Machine.Memory

namespace Machine

/-- Settles O16: the canonical form is rising from 0 and lists no byte equal to the unlisted one. -/
theorem canonicalMemoriesThatReadAlikeAreEqual : Obligations.CanonicalMemoriesThatReadAlikeAreEqual := by
  intro k m n hm hn hread
  rw [Memory.wf_iff] at hm hn
  exact Memory.eq_of_read_eq hm.1 hn.1 (fun e he => (hm.2 e he).2) (fun e he => (hn.2 e he).2) hread

end Machine

end Sys2Proof
end

section
/-! PROOFS. Operand locations in numbers (30_encoding.md R85 to R96, 40_cycle.md R122). -/

namespace Sys2Proof

open Sys2Proof.Machine Sys2Proof.Claims

/-- A byte as a word, in numbers (00_scope.md R9). -/
theorem zext16_eq_ofNat (b : Byte) : zext16 b = BitVec.ofNat 16 b.toNat := by
  rw [← toNat_zext16, BitVec.ofNat_toNat, BitVec.setWidth_eq]

/-- A zero-page address with its index, in numbers: the sum wraps in page 0 (30_encoding.md R89, R90). -/
theorem zext16_add_eq_ofNat (b x : Byte) : zext16 (b + x) = BitVec.ofNat 16 ((b.toNat + x.toNat) % 256) := by
  rw [zext16_eq_ofNat, BitVec.toNat_add]

/-- An address with its index, in numbers: the sum wraps at 65536 (30_encoding.md R92, R93). -/
theorem add_zext16_eq_ofNat (w : Word) (x : Byte) :
    w + zext16 x = BitVec.ofNat 16 ((w.toNat + x.toNat) % 65536) := by
  apply BitVec.eq_of_toNat_eq
  rw [BitVec.toNat_add, toNat_zext16, BitVec.toNat_ofNat, Nat.mod_mod]

namespace Machine

/-- A zero-page pointer's word in numbers, its high byte in page 0 or at the next address (R95, R96). -/
theorem zeroPagePointer_eq_pointerWord (s : State) (p : Byte) : s.zeroPagePointer p = pointerWord s p.toNat := by
  have hwrap : zext16 (p + 1) = BitVec.ofNat 16 ((p.toNat + 1) % 256) := zext16_add_eq_ofNat p 1
  have hnext : zext16 p + 1 = BitVec.ofNat 16 (p.toNat + 1) := by
    rw [zext16_eq_ofNat, BitVec.ofNat_add]
    rfl
  rw [State.zeroPagePointer, pointerWord, hwrap, hnext, ← apply_ite (BitVec.ofNat 16), zext16_eq_ofNat,
    wordOf_eq_wordOfBytes]

/-- The memory address of a location, if it is one. -/
def Loc.address : Loc → Option Word
  | .regA => none
  | .imm _ => none
  | .mem ea => some ea

theorem Loc.address_eq_some {l : Loc} {ea : Word} : l.address = some ea ↔ l = .mem ea := by
  cases l <;> simp [address]

/-- The effective address in numbers is the address of the location the resolver gives (R85 to R96). -/
theorem effectiveAddress_eq (s : State) (o : Operand) : effectiveAddress s o = (s.resolve o).address := by
  cases o with
  | accumulator => rfl
  | immediate v => rfl
  | absolute w => rfl
  | zeroPage b => exact congrArg some (zext16_eq_ofNat b).symm
  | zeroPageX b => exact congrArg some (zext16_add_eq_ofNat b s.x).symm
  | zeroPageY b => exact congrArg some (zext16_add_eq_ofNat b s.y).symm
  | absoluteX w => exact congrArg some (add_zext16_eq_ofNat w s.x).symm
  | absoluteY w => exact congrArg some (add_zext16_eq_ofNat w s.y).symm
  | indirectX b =>
    rw [effectiveAddress, ← BitVec.toNat_add, ← zeroPagePointer_eq_pointerWord]
    rfl
  | indirectY b =>
    rw [effectiveAddress, ← zeroPagePointer_eq_pointerWord, ← add_zext16_eq_ofNat]
    rfl

/-- Settles O21: by `effectiveAddress_eq` each mode's location is the address, the immediate byte or A. -/
theorem operandsResolveToTheirAddresses : Obligations.OperandsResolveToTheirAddresses := by
  intro s o
  rw [effectiveAddress_eq]
  refine ⟨fun ea => Loc.address_eq_some.symm, ?value, fun v => ?store⟩
  case value => cases o <;> rfl
  case store => cases o <;> rfl

end Machine

end Sys2Proof
end

section
/-! PROOFS. What is pushed is pulled (40_cycle.md R118 to R121), so RTS undoes JSR and RTI undoes an exception entry
(45_control.md R165, 60_exceptions.md R196, 46_flags_system.md section 4); the interrupt check itself
(60_exceptions.md R191 to R193). -/

namespace Sys2Proof

open Sys2Proof.Machine Sys2Proof.Claims

namespace Machine

/-- The flags survive the status byte (10_state.md R30). -/
@[simp] theorem Flags.ofSr_sr (f : Flags) : ofSr f.sr = f := by
  obtain ⟨c, z, i, d, b, v, n⟩ := f
  revert c z i d b v n
  decide

/-- Bit 5 of the status byte is 1 (10_state.md R28). -/
theorem Flags.testBit_five_sr (f : Flags) : f.sr.toNat.testBit 5 = true := by
  obtain ⟨c, z, i, d, b, v, n⟩ := f
  revert c z i d b v n
  decide

/-- Settles O18: the status byte in place values and back, and the bits of a byte. -/
theorem statusBytePacksTheFlags : Obligations.StatusBytePacksTheFlags :=
  ⟨fun f => ⟨f.sr_eq_statusByte, f.ofSr_sr, f.testBit_five_sr⟩, Flags.ofSr_eq_flagsOfByte⟩

/-- Unpacking and packing a status byte sets bit 5 (10_state.md R29, R30). -/
theorem Flags.sr_ofSr : ∀ v : Byte, (ofSr v).sr = v ||| 0x20 := by decide

/-- Settles O20: the two digits in place values, and the status byte bit by bit. -/
theorem conversionsRoundTrip : Obligations.ConversionsRoundTrip := by
  refine ⟨fun n hn => ?_, Flags.sr_ofSr⟩
  rw [fromBCD_eq_bcdValue, bcdValue, toNat_toBCD, bcdDigits]
  omega

namespace State

/-- A pull gives back the byte pushed before it and SP (40_cycle.md R119). -/
theorem pull_push (s : State) (v : Byte) : (s.push v).pull = (v, { s with ram := (s.push v).ram }) := by
  rw [pull_eq, push_sp, BitVec.sub_add_cancel, ramByte_push, if_pos rfl]
  rfl

/-- A word pull reads RAM and SP and writes SP alone (40_cycle.md R121). -/
theorem pull16_setPc (s : State) (v : Word) : (s.setPc v).pull16 = (s.pull16.1, s.pull16.2.setPc v) := by
  rw [pull16_eq, pull16_eq]
  rfl

/-- A word pull gives back the word pushed before it and SP (40_cycle.md R121). -/
theorem pull16_push16 (s : State) (w : Word) : (s.push16 w).pull16 = (w, { s with ram := (s.push16 w).ram }) := by
  have hhi : s.sp - 2 + 2 = s.sp := BitVec.sub_add_cancel ..
  have hlo : s.sp - 2 + 1 = s.sp - 1 := by bv_omega
  have hne : stackAddr s.sp ≠ stackAddr (s.sp - 1) := mt stackAddr_inj.1 (by bv_omega)
  rw [pull16_eq, push16_sp, hhi, hlo, ramByte_push16, ramByte_push16, if_neg hne, if_pos rfl, if_pos rfl, wordOf_bytes,
    push16_eq]
  rfl

end State

/-- Settles O17: the two identities. -/
theorem pullReturnsWhatPushWrote : Obligations.PullReturnsWhatPushWrote :=
  fun s v w => ⟨s.pull_push v, s.pull16_push16 w⟩

/-- Settles O44: RTS pulls the word that JSR pushed, which is PC itself. -/
theorem returnComesBackBehindTheCall : Obligations.ReturnComesBackBehindTheCall := by
  intro s t w h
  cases h
  have hpull : (jsr w s).pull16 = (s.pc, State.setPc { s with ram := (s.push16 s.pc).ram } (w - 1)) := by
    rw [jsr, State.jumpTo, State.pull16_setPc, State.pull16_push16]
  refine congrArg Host.Outcome.next (?_ : rts (jsr w s) = _)
  rw [rts, hpull]
  rfl

/-- The three stack bytes an exception entry leaves, from SP down (60_exceptions.md R192). -/
theorem takeException_slots (s : State) :
    s.takeException.ramByte (stackAddr s.sp) = hiByte (s.pc + 1) ∧
    s.takeException.ramByte (stackAddr (s.sp - 1)) = loByte (s.pc + 1) ∧
    s.takeException.ramByte (stackAddr (s.sp - 2)) = s.sr := by
  have h01 : stackAddr s.sp ≠ stackAddr (s.sp - 1) := mt stackAddr_inj.1 (by bv_omega)
  have h02 : stackAddr s.sp ≠ stackAddr (s.sp - 2) := mt stackAddr_inj.1 (by bv_omega)
  have h12 : stackAddr (s.sp - 1) ≠ stackAddr (s.sp - 2) := mt stackAddr_inj.1 (by bv_omega)
  simp only [State.ramByte_takeException, if_neg h01, if_neg h02, if_neg h12, if_pos, and_self]

/-- The return undoes an exception entry whatever else was written between: SP, the flags and PC are those before the
entry (46_flags_system.md R182, R183). -/
theorem returnFromException_after_takeException {s t : State} (hram : t.ram = s.takeException.ram)
    (hsp : t.sp = s.sp - 3) : t.returnFromException = { t with sp := s.sp, flags := s.flags, pc := s.pc } := by
  have hbyte : ∀ a, t.ramByte a = s.takeException.ramByte a := fun a => by rw [State.ramByte, hram, State.ramByte]
  have h1 : s.sp - 3 + 1 = s.sp - 2 := by bv_omega
  have h2 : s.sp - 3 + 2 = s.sp - 1 := by bv_omega
  have h3 : s.sp - 3 + 3 = s.sp := by bv_omega
  obtain ⟨hhigh, hlow, hstatus⟩ := takeException_slots s
  rw [State.returnFromException_next, hsp, h1, h2, h3, hbyte, hbyte, hbyte, hhigh, hlow, hstatus, wordOf_bytes,
    State.sr, Flags.ofSr_sr, BitVec.add_sub_cancel]

/-- Settles O45: the interrupt entry is an exception entry whose other effects RTI leaves as they are. -/
theorem returnUndoesTheInterruptEntry : Obligations.ReturnUndoesTheInterruptEntry := by
  intro s hdue
  rw [State.checkIrq_of_deliveryDue hdue]
  have hram : s.enterInterrupt.ram = s.takeException.ram := by rw [State.enterInterrupt_next]
  have hsp : s.enterInterrupt.sp = s.sp - 3 := by rw [State.enterInterrupt_next, State.takeException_next]
  refine congrArg Host.Outcome.next ((returnFromException_after_takeException hram hsp).trans ?_)
  rw [State.enterInterrupt_next, State.takeException_next]

/-- Settles O46: BRK is an exception entry from its padding byte with B set. -/
theorem returnGoesOnBehindTheBreak : Obligations.ReturnGoesOnBehindTheBreak := by
  intro s t pad hstop h
  cases h
  have hbrk : brk s = _ := (brk_enter hstop).trans (State.enterBreak_next _)
  have hram : (brk s).ram = _ := congrArg State.ram hbrk
  have hsp : (brk s).sp = s.sp - 3 := by rw [hbrk, State.takeException_next]
  refine congrArg Host.Outcome.next ((returnFromException_after_takeException hram hsp).trans ?_)
  rw [hbrk, State.takeException_next]

/-- Settles O50: the entry's pushes, and its other effects in numbers; I is clear before, so the parameter sets it. -/
theorem interruptCheckTakesTheEntry : Obligations.InterruptCheckTakesTheEntry := by
  refine fun s => ⟨fun hdue => ?_, State.checkIrq_of_not_deliveryDue⟩
  have ⟨_, hclear, _⟩ := hdue
  rw [State.checkIrq_of_deliveryDue hdue, State.enterInterrupt_next]
  constructor
  · have hreturn : (s.pc + 1).toNat = (s.pc.toNat + 1) % 65536 := by bv_omega
    have hlow : loByte (s.pc + 1) = BitVec.ofNat 8 (s.pc.toNat + 1) := by
      rw [loByte_eq_ofNat, hreturn]
      bv_omega
    rw [← hreturn, ← hiByte_eq_ofNat, ← hlow, ← Flags.sr_eq_statusByte]
    exact pushesOnly_takeException s
  · rw [State.takeException_next, hclear, Bool.or_false, ← sub_three_eq_ofNat, ← wordOf_eq_wordOfBytes,
      ← target_sub_one_eq_ofNat]
    rfl

end Machine

end Sys2Proof
end

section
/-! PROOFS. The whole step by what its bytes decode to (40_cycle.md R110 to R115, 60_exceptions.md R185), raised
requests (60_exceptions.md R189) and reset (70_reset_and_hazards.md R205 to R207). -/

namespace Sys2Proof

open Sys2Proof.Machine Sys2Proof.Claims

/-- An illegal byte does not decode (30_encoding.md R101, R109). -/
theorem decode_illegal {op : Byte} (h : illegalBytes.contains op = true) (l : List Byte) :
    decode (op :: l) = .error (.illegalOpcode op) := by
  rw [← opcodeTable_lookup_isNone, Option.isNone_iff_eq_none] at h
  exact decode_unlisted h l

/-- The opcode `$40` is RTI's and no other instruction's (30_encoding.md R100). -/
theorem opcode_eq_rti_iff {op : Byte} {l r : List Byte} {i : Instr} (h : decode (op :: l) = .ok (i, r)) :
    op = 0x40 ↔ i = .rti := by
  constructor
  · rintro rfl
    cases h.symm.trans (decode_bare rfl l)
    rfl
  · rintro rfl
    exact Option.some.inj (hasOpcode_of_decode h).symm

namespace Machine

/-- Settles O47: `step_of_decode`, and the RTI-flag step reads the opcode byte, which is `$40` for RTI alone. -/
theorem stepRunsTheDecodedInstruction : Obligations.StepRunsTheDecodedInstruction := by
  intro s i rest hdecode t hexec
  rw [step_of_decode hdecode hexec, State.endOfStep, State.rtiFlagStep]
  simp only [opcode_eq_rti_iff hdecode]
  rfl

/-- Settles O48: the byte does not decode, so the step takes the illegal path; the byte is not RTI's. -/
theorem illegalByteIsAOneByteNoOp : Obligations.IllegalByteIsAOneByteNoOp := by
  intro s hillegal
  have hrti : s.memRead (s.pc + 1) ≠ 0x40 := by
    intro hop
    rw [hop] at hillegal
    exact absurd hillegal (by decide)
  obtain ⟨u, hstep, ⟨i, rest, hdecode, -⟩ | ⟨-, rfl⟩⟩ := step_next s
  · cases hdecode.symm.trans (decode_illegal hillegal _)
  · rw [hstep, State.endOfStep_of_ne_rti _ hrti]
    rfl

/-- Settles O52: by induction on the requests, each adding one below the capacity. -/
theorem raisedRequestsSaturate : Obligations.RaisedRequestsSaturate := by
  intro n s hcap
  induction n with
  | zero => rw [Nat.add_zero, Nat.min_eq_left hcap]; rfl
  | succ n ih =>
    have hsum : min (min (s.pending + n) s.cfg.irqQueueCap + 1) s.cfg.irqQueueCap =
        min (s.pending + (n + 1)) s.cfg.irqQueueCap := by omega
    rw [Function.iterate_succ_apply', ih, ← hsum]
    rfl

/-- PC at reset is one less than the entry, in numbers (70_reset_and_hazards.md R206). -/
theorem toNat_resetFrom_pc (l : Launch) : (resetFrom l).pc.toNat = (l.entry.toNat + 65535) % 65536 := by
  rw [resetFrom, State.setPc_pc, target_sub_one_eq_ofNat, BitVec.toNat_ofNat]

/-- Settles O55: reset sets every field, and the entry is the fixed address or the vector's word. -/
theorem resetEstablishesTheLaunch : Obligations.ResetEstablishesTheLaunch := by
  refine fun l => ⟨rfl, fun e hfixed => ?_, fun hplatform => ?_⟩
  · rw [toNat_resetFrom_pc, Launch.entry, hfixed]
  · rw [toNat_resetFrom_pc, Launch.entry, hplatform, ← wordOf_eq_wordOfBytes]
    rfl

end Machine

end Sys2Proof
end

section
/-! PROOFS. The frames over all instructions: flags, registers and memory (10_state.md sections 2 and 3, 40_cycle.md
section 2). -/

namespace Sys2Proof

open Sys2Proof.Machine Sys2Proof.Claims

namespace Machine

/-- Each flag after an instruction is the one before it unless the instruction is listed for it (10_state.md
section 3). -/
theorem exec_flags {i : Instr} {s t : State} (h : exec i s = .next t) : t.flags =
    { c := bif writesC i then t.flags.c else s.flags.c, z := bif writesNZ i then t.flags.z else s.flags.z
      i := bif writesI i then t.flags.i else s.flags.i, d := bif writesD i then t.flags.d else s.flags.d
      b := bif writesB i then t.flags.b else s.flags.b, v := bif writesV i then t.flags.v else s.flags.v
      n := bif writesNZ i then t.flags.n else s.flags.n } := by
  cases i with
  | brk pad =>
    cases h
    cases hstop : s.stopOnBreak
    · rw [brk_enter hstop, State.enterBreak_next, State.takeException_next]; rfl
    · rw [brk_stop hstop]; rfl
  | bcc d | bcs d | beq d | bmi d | bne d | bpl d | bvc d | bvs d => cases h; rw [branch_next]; rfl
  | adcIndX | adcZp | adcImm | adcAbs | adcIndY | adcZpX | adcAbsY | adcAbsX =>
    cases h; rw [adc_next, addWithCarry_flags]; rfl
  | sbcIndX | sbcZp | sbcImm | sbcAbs | sbcIndY | sbcZpX | sbcAbsY | sbcAbsX =>
    cases h; rw [sbc_next, subWithBorrow_flags]; rfl
  | _ => cases h; rfl

/-- Settles O56: a flag the instruction is not listed for is on the unwritten side of `exec_flags`. -/
theorem flagsAreWrittenOnlyByTheListedInstructions : Obligations.FlagsAreWrittenOnlyByTheListedInstructions := by
  intro i s t h
  have hflags := exec_flags h
  refine ⟨fun hw => ?_, fun hw => ?_, fun hw => ?_, fun hw => ?_, fun hw => ?_, fun hw => ?_⟩ <;>
    · rw [hflags]
      simp only [hw, cond_false, and_self]

/-- A, X, Y, SP and PC after an instruction are those before it unless the instruction is listed for them (10_state.md
section 2). -/
theorem exec_registers {i : Instr} {s t : State} (h : exec i s = .next t) : t = { t with
    a := bif writesA i then t.a else s.a, x := bif writesX i then t.x else s.x, y := bif writesY i then t.y else s.y
    sp := bif writesSp i then t.sp else s.sp, pc := bif movesPc i then t.pc else s.pc } := by
  cases i with
  | brk pad =>
    cases h
    cases hstop : s.stopOnBreak
    · rw [brk_enter hstop, State.enterBreak_next, State.takeException_next]; rfl
    · rw [brk_stop hstop]; rfl
  | bcc d | bcs d | beq d | bmi d | bne d | bpl d | bvc d | bvs d => cases h; rw [branch_next]; rfl
  | _ => cases h; rfl

/-- Settles O57: a register the instruction is not listed for is on the unwritten side of `exec_registers`. -/
theorem registersAreWrittenOnlyByTheListedInstructions :
    Obligations.RegistersAreWrittenOnlyByTheListedInstructions := by
  intro i s t h
  have ht := exec_registers h
  refine ⟨fun hw => ?_, fun hw => ?_, fun hw => ?_, fun hw => ?_, fun hw => ?_, exec_latch h⟩ <;>
    · rw [ht]
      simp only [hw, cond_false]

namespace State

/-- Write bytes at addresses, one after another. -/
def writeAll (s : State) : List (Word × Byte) → State
  | [] => s
  | (a, v) :: l => (s.memWrite a v).writeAll l

/-- Writes change RAM alone (20_memory.md R57). -/
theorem writeAll_eq (s : State) (l : List (Word × Byte)) : s.writeAll l = s.setRam (s.writeAll l).ram := by
  induction l generalizing s with
  | nil => rfl
  | cons e l ih => exact ih (s.memWrite e.1 e.2)

/-- Writes leave the RAM bytes at other addresses alone. -/
theorem ramByte_writeAll {s : State} {l : List (Word × Byte)} {a : Word} (h : a ∉ l.map Prod.fst) :
    (s.writeAll l).ramByte a = s.ramByte a := by
  induction l generalizing s with
  | nil => rfl
  | cons e l ih =>
    simp only [List.map_cons, List.mem_cons, not_or] at h
    rw [writeAll, ih h.2, ramByte_memWrite, if_neg h.1]

/-- Writes outside the port leave the reads of other addresses alone (20_memory.md R57, R62). -/
theorem memRead_writeAll {s : State} {l : List (Word × Byte)} {a : Word} (hport : portAddr ∉ l.map Prod.fst)
    (h : a ∉ l.map Prod.fst) : (s.writeAll l).memRead a = s.memRead a := by
  induction l generalizing s with
  | nil => rfl
  | cons e l ih =>
    simp only [List.map_cons, List.mem_cons, not_or] at h hport
    rw [writeAll, ih hport.2 h.2, memRead_memWrite_other _ (Ne.symm hport.1) h.1]

/-- Writes keep RAM in canonical form. -/
theorem wf_writeAll {s : State} (h : Memory.wf .ram s.ram = true) (l : List (Word × Byte)) :
    Memory.wf .ram (s.writeAll l).ram = true := by
  induction l generalizing s with
  | nil => exact h
  | cons e l ih => exact ih (wf_memWrite h e.1 e.2)

end State

/-- BRK stores to the three slots from SP down, off the stop path (46_flags_system.md R182). -/
theorem storeAddresses_brk (pad : Byte) (s : State) : storeAddresses (.brk pad) s =
    if s.stopOnBreak then [] else [stackAddr s.sp, stackAddr (s.sp - 1), stackAddr (s.sp - 2)] := rfl

/-- The RAM an instruction leaves is the RAM before it with one byte written at each of its store addresses (40_cycle.md
R118, R120, R122, 46_flags_system.md R182). -/
theorem exec_ram {i : Instr} {s t : State} (h : exec i s = .next t) :
    ∃ l, l.map Prod.fst = storeAddresses i s ∧ t.ram = (s.writeAll l).ram := by
  cases i with
  | staIndX | staZp | staAbs | staIndY | staZpX | staAbsY | staAbsX | stxZp | stxAbs | stxZpY | styZp | styAbs | styZpX
  | incZp | incAbs | incZpX | incAbsX | decZp | decAbs | decZpX | decAbsX | aslZp | aslAbs | aslZpX | aslAbsX
  | lsrZp | lsrAbs | lsrZpX | lsrAbsX | rolZp | rolAbs | rolZpX | rolAbsX | rorZp | rorAbs | rorZpX | rorAbsX
  | pha | php => cases h; exact ⟨[(_, _)], rfl, rfl⟩
  | jsrAbs w => cases h; exact ⟨[(_, _), (_, _)], rfl, rfl⟩
  | brk pad =>
    cases h
    cases hstop : s.stopOnBreak
    · have hsp : s.sp - 1 - 1 = s.sp - 2 := by bv_omega
      rw [storeAddresses_brk, hstop, if_neg Bool.false_ne_true, ← hsp, brk_enter hstop, State.enterBreak_next]
      exact ⟨[(_, _), (_, _), (_, _)], rfl, rfl⟩
    · rw [storeAddresses_brk, hstop, if_pos rfl, brk_stop hstop]
      exact ⟨[], rfl, rfl⟩
  | bcc d | bcs d | beq d | bmi d | bne d | bpl d | bvc d | bvs d => cases h; rw [branch_next]; exact ⟨[], rfl, rfl⟩
  | _ => cases h; exact ⟨[], rfl, rfl⟩

/-- Settles O58: the writes are at the store addresses, so RAM elsewhere, and reads elsewhere in the same mode, stay. -/
theorem memoryChangesOnlyAtTheStoreAddresses : Obligations.MemoryChangesOnlyAtTheStoreAddresses := by
  intro i s t h
  obtain ⟨l, haddresses, hram⟩ := exec_ram h
  rw [← haddresses]
  refine ⟨fun a ha => ?_, fun hport a ha => ?_⟩
  · rw [State.ramByte, hram]
    exact State.ramByte_writeAll ha
  · rw [exec_memRead h, hram, ← State.writeAll_eq]
    exact State.memRead_writeAll hport ha

end Machine

end Sys2Proof
end

section
/-! PROOFS. What every step keeps: the ROMs, the I/O chunk, the lines and the parameters (10_state.md sections 5 to 7),
and the invariant, which reset has (10_state.md sections 4, 6 and 9). -/

namespace Sys2Proof

open Sys2Proof.Machine Sys2Proof.Claims

namespace Machine

/-- What no step writes: the ROMs, the I/O chunk, the lines, the stop-on-break mode and the parameters (10_state.md
sections 5 to 7). -/
def State.hardware (s : State) :
    Memory × Memory × Memory × Memory × Memory × Memory × Bool × Bool × Bool × Config :=
  (s.basic, s.kernal, s.char, s.cartLo, s.cartHi, s.io, s.game, s.exrom, s.stopOnBreak, s.cfg)

/-- An instruction writes none of it. -/
theorem exec_hardware {i : Instr} {s t : State} (h : exec i s = .next t) : t.hardware = s.hardware := by
  obtain ⟨t', ht, hframe⟩ := exec_next i s
  cases h.symm.trans ht
  rw [hframe]
  rfl

/-- The end of a step writes none of it. -/
theorem State.endOfStep_hardware (s : State) (op : Byte) : (s.endOfStep op).hardware = s.hardware := by
  rw [endOfStep, checkIrq_next, rtiFlagStep_next]
  rfl

/-- A step writes none of it: neither the instruction or the illegal path nor the end of the step does. -/
theorem step_hardware {s t : State} (hstep : step s = .next t) : t.hardware = s.hardware := by
  obtain ⟨u, hu, hbody⟩ := step_next s
  cases hstep.symm.trans hu
  rw [State.endOfStep_hardware]
  obtain ⟨i, rest, -, hexec⟩ | ⟨-, rfl⟩ := hbody
  · rw [exec_hardware hexec]
    rfl
  · rfl

/-- Settles O59: `step_hardware`, part by part. -/
theorem stepsNeverWriteRomIoLinesOrParameters : Obligations.StepsNeverWriteRomIoLinesOrParameters := by
  intro s t hstep
  simpa only [State.hardware, Prod.mk.injEq] using step_hardware hstep

/-- An instruction keeps RAM in canonical form: it writes bytes at addresses. -/
theorem exec_wf_ram {i : Instr} {s t : State} (h : exec i s = .next t) (hs : Memory.wf .ram s.ram = true) :
    Memory.wf .ram t.ram = true := by
  obtain ⟨l, -, hram⟩ := exec_ram h
  rw [hram]
  exact State.wf_writeAll hs l

/-- The interrupt check keeps RAM in canonical form. -/
theorem State.checkIrq_wf_ram {s : State} (hs : Memory.wf .ram s.ram = true) :
    Memory.wf .ram s.checkIrq.ram = true := by
  unfold checkIrq
  split
  · rw [enterInterrupt_next]
    exact wf_takeException hs
  · exact hs

/-- A step keeps RAM in canonical form: the instruction and the interrupt check do, and the rest writes none. -/
theorem step_wf_ram {s t : State} (hstep : step s = .next t) (hs : Memory.wf .ram s.ram = true) :
    Memory.wf .ram t.ram = true := by
  obtain ⟨u, hu, hbody⟩ := step_next s
  cases hstep.symm.trans hu
  have hbody_wf : Memory.wf .ram u.ram = true := by
    obtain ⟨i, rest, -, hexec⟩ | ⟨-, rfl⟩ := hbody
    · exact exec_wf_ram hexec hs
    · exact hs
  rw [State.endOfStep, State.rtiFlagStep_next]
  exact State.checkIrq_wf_ram hbody_wf

/-- A step leaves no more requests pending than before (60_exceptions.md R195). -/
theorem step_pending_le {s t : State} (hstep : step s = .next t) : t.pending ≤ s.pending := by
  obtain ⟨hsame, -⟩ | ⟨hdelivered, -⟩ := stepDeliversAtMostOneRequest s t hstep
  · exact hsame.le
  · omega

/-- Settles O53: a step keeps RAM in canonical form, writes no other chunk and no parameter, and raises no request. -/
theorem everyStepKeepsTheInvariant : Obligations.EveryStepKeepsTheInvariant := by
  intro s t ⟨hram, hbasic, hkernal, hchar, hcartLo, hcartHi, hio, hpending, hcap⟩ hstep
  obtain ⟨basic, kernal, char, cartLo, cartHi, io, -, -, -, cfg⟩ := stepsNeverWriteRomIoLinesOrParameters s t hstep
  rw [State.Inv, basic, kernal, char, cartLo, cartHi, io, cfg]
  exact ⟨step_wf_ram hstep hram, hbasic, hkernal, hchar, hcartLo, hcartHi, hio, (step_pending_le hstep).trans hpending,
    hcap⟩

/-- Settles O54: every chunk is empty, so canonical, and no request is pending. -/
theorem resetHasTheInvariant : Obligations.ResetHasTheInvariant :=
  ⟨rfl, rfl, rfl, rfl, rfl, rfl, rfl, Nat.zero_le _, le_refl _⟩

end Machine

end Sys2Proof
end
